-- ==== Sys2Proof/Word.lean ====
section
/-!
DEFINITION. The word types of the panel: a scalar register, a lane, a byte (R1, R2, R73, R74).
-/

namespace Sys2Proof

/-- A scalar register, an address, an instruction address. -/
abbrev Word := BitVec 64
/-- A lane of a vector register. -/
abbrev Lane := BitVec 32
/-- A byte of memory. -/
abbrev Byte := BitVec 8

end Sys2Proof
end

