-- ==== Sys2Proof/Config.lean ====
section
/-!
DEFINITION. What one panel fixes and the spec leaves open, as free values: constants with no body, so that no proof can
see one (log 5, log 10).
-/

namespace Sys2Proof.Config

/-- The address of the firmware's supervisor handler, which the firmware fixes when it starts running (R33): one free
value for each firmware start. -/
opaque firmwareTvec : Nat → BitVec 64
/-- PANELID's stepping and serial number, fused at manufacture; a serial number is never 0 (R235). -/
opaque stepping : BitVec 8
opaque fusedSerial : BitVec 32
def serial : BitVec 32 := if fusedSerial = 0 then 1 else fusedSerial
/-- The physical stalls of each stable that fail the manufacturing test record, and those that fail the firmware's self-test at a
start of the firmware (R24, log 8). -/
opaque testRecord : Nat → BitVec 384
opaque selfTest : Nat → Nat → BitVec 384
/-- Panel time of the reset release of each stable at a cold boot, modulo 2^64: a moment of the stable's own during the boot
(R192, log 56). -/
opaque release : Nat → Nat → BitVec 64
/-- The set of a home slice in which a line stands: R101 gives 16 ways and 512 KiB to a way, and not the bits that choose
one of the 8,192 sets (log 65). -/
opaque l2Set : Bool → Nat → BitVec 13
/-- The fused public keys of an image's signatures: the point of ECDSA P-384, and I and the root of LMS (R244). -/
opaque ecdsaKey : Nat × Nat
opaque lmsId : BitVec 128
opaque lmsRoot : BitVec 256
/-- The least version the fuses accept (R244). -/
opaque vmin : BitVec 32
/-- The two signatures of an attestation report, the second under the key pair of the report's number (R245). -/
opaque ecdsaSign : List (BitVec 8) → List (BitVec 8)
opaque lmsSign : Nat → List (BitVec 8) → List (BitVec 8)

/-- A value the spec leaves open, by the counter that the step advances at each use (log 3). -/
opaque freeWord : Nat → BitVec 64

end Sys2Proof.Config
end

