-- ==== Sys2Proof/Syntax.lean ====
section
/-!
DEFINITION. The instruction set as syntax: the operand forms of R256, the 96-bit slot of R255 without its opcode,
and ONE inductive with a constructor per row of the opcode table: the encoded instructions (R263) carry their slot,
the panel's events carry what the outside world or the model's schedule chooses in them.
-/

namespace Sys2Proof

/-- The element types, by the codes of R52, R56 and R63. -/
inductive ETy where
  | s2 | s4 | s8 | n8 | s16 | n16 | s32 | n32 | s64 | n64
  | f32 | f16 | bf16 | e4m3 | e5m2 | o4 | e8m0
  deriving DecidableEq, Repr

/-- An operand field: its kind (R256) with its number. -/
inductive Opnd where
  /-- kind 00, vector register vN -/
  | v (n : BitVec 6)
  /-- kind 01, scalar register sN -/
  | s (n : BitVec 6)
  /-- kind 10, the immediate (the number must be 0) -/
  | imm (n : BitVec 6)
  /-- kind 11, special register by index -/
  | x (n : BitVec 6)
  deriving DecidableEq, Repr

/-- The kind of an operand field. -/
inductive Kind where
  | v | s | i | x
  deriving DecidableEq, Repr

/-- The kind of an operand (R256). -/
def Opnd.kind : Opnd → Kind
  | .v _ => .v
  | .s _ => .s
  | .imm _ => .i
  | .x _ => .x

/-- The number of an operand (R256). -/
def Opnd.num : Opnd → Nat
  | .v n => n.toNat
  | .s n => n.toNat
  | .imm n => n.toNat
  | .x n => n.toNat

/-- The all-zero field, which an unused operand must hold (R258). -/
def Opnd.zero : Opnd := .v 0

/-- An instruction slot without its opcode (R255): DST, OPA, OPB, OPC, MOD (slot bits 49 to 32) and IMM. -/
structure Slot where
  dst : Opnd
  a : Opnd
  b : Opnd
  c : Opnd
  mod : BitVec 18
  imm : BitVec 32
  deriving DecidableEq, Repr

/-- The two classes of corrected error whose counters stand with a stable, and the three with a barn (R194). -/
inductive CeClass where
  | sram | fetch | l2 | dram | link
  deriving DecidableEq, Repr

/-- Where an uncorrectable error stands (R102, R231). -/
inductive EccSite where
  /-- general DRAM, at a physical address -/
  | dram (pa : Nat)
  /-- a scratchpad, register file or owned L1 word of a stall: the stall is lost -/
  | stall (stall : Nat)
  /-- a dirty L2 line or a reservoir way of a barn, beyond its code's correction -/
  | barn (barn : Nat)
  /-- a clean 32-byte sector of an L1 line of global memory, or of a loft line -/
  | l1 (stall : Nat) (loft : Bool) (tag : Nat) (sector : Nat)
  /-- a clean line of an L2 slice, of panel DRAM or of the loft -/
  | l2 (barn : Nat) (slice : Nat) (loft : Bool) (tag : Nat)
  /-- a line of a barn's loft partition, at a partition offset -/
  | loft (barn : Nat) (off : Nat)
  /-- a line of a barn's reservoir shadow, at a store offset -/
  | shadow (barn : Nat) (off : Nat)
  /-- a record of a gang, in the record area of its partner barn -/
  | record (gang : Nat)
  deriving DecidableEq, Repr

/-- What a host writes: general DRAM, its own memory, or how its memory answers (R108, R110, R233). -/
inductive HostWrite where
  /-- bytes of BAR2 from a physical address on -/
  | bar2 (pa : Nat)
  /-- bytes of the host's own memory; with `during`, between the read and the write of a locked read-modify-write of the panel -/
  | own (pa : Nat) (during : Bool)
  /-- from now on the host completes requests to an interval of its memory with an error, or no longer does; no byte is written -/
  | errors (pa n : Nat)
  | answers (pa n : Nat)
  /-- an AtomicOp, for which a port is no completer -/
  | atomicOp
  deriving DecidableEq, Repr

/-- What a host reads (R233, R234): a BAR from an offset on, or an address outside the BARs. -/
inductive HostRead where
  | bar0 (off : Nat)
  | bar2 (pa : Nat)
  | bar4 (off : Nat)
  | outside
  deriving DecidableEq, Repr

/-- A port whose link has come up, with what its host sets and what its root port supports (R108, R239). -/
structure PortUp where
  port : Nat
  busMaster : Bool
  atomics : Bool
  deriving DecidableEq, Repr

/-- What a trained link learns of its peer: the peer's link number, its INB, and its inbound window in bytes (R246, R247). -/
structure Peer where
  link : Nat
  inb : Bool
  base : Nat
  len : Nat
  deriving DecidableEq, Repr

/-- What of a group's load is performed in one move: the operation's position in the group's list, and the positions of those of
its accesses that are now (R113). -/
structure LoadPart where
  idx : Nat
  accs : List Nat
  deriving DecidableEq, Repr

/-- A joined panel's request on a panel link, or what a peer does to its own memory, which the panel reaches over the link
(R247). -/
inductive Inbound where
  | read (off n : Nat)
  | write (off : Nat) (bytes : List (BitVec 8))
  | atomic (op : BitVec 4) (ty : ETy) (off : Nat) (value compare : BitVec 64)
  | own (off : Nat) (bytes : List (BitVec 8))
  deriving DecidableEq, Repr

/-- One constructor per row of the opcode table. -/
inductive Instr where
  /-- NOP (major 0x00, minor 0x00) -/
  | nop (o : Slot)
  /-- BRK (major 0x00, minor 0x01) -/
  | brk (o : Slot)
  /-- ADD (major 0x01, minor 0x00) -/
  | add (o : Slot)
  /-- SUB (major 0x01, minor 0x01) -/
  | sub (o : Slot)
  /-- MUL (major 0x01, minor 0x02) -/
  | mul (o : Slot)
  /-- MULH (major 0x01, minor 0x03) -/
  | mulh (o : Slot)
  /-- MULHN (major 0x01, minor 0x04) -/
  | mulhn (o : Slot)
  /-- DIV (major 0x01, minor 0x05) -/
  | div (o : Slot)
  /-- DIVN (major 0x01, minor 0x06) -/
  | divn (o : Slot)
  /-- REM (major 0x01, minor 0x07) -/
  | rem (o : Slot)
  /-- REMN (major 0x01, minor 0x08) -/
  | remn (o : Slot)
  /-- MIN (major 0x01, minor 0x09) -/
  | min (o : Slot)
  /-- MAX (major 0x01, minor 0x0A) -/
  | max (o : Slot)
  /-- MINN (major 0x01, minor 0x0B) -/
  | minn (o : Slot)
  /-- MAXN (major 0x01, minor 0x0C) -/
  | maxn (o : Slot)
  /-- AND (major 0x01, minor 0x0D) -/
  | and (o : Slot)
  /-- OR (major 0x01, minor 0x0E) -/
  | or (o : Slot)
  /-- XOR (major 0x01, minor 0x0F) -/
  | xor (o : Slot)
  /-- ANDN (major 0x01, minor 0x10) -/
  | andn (o : Slot)
  /-- SHL (major 0x01, minor 0x11) -/
  | shl (o : Slot)
  /-- SHR (major 0x01, minor 0x12) -/
  | shr (o : Slot)
  /-- SAR (major 0x01, minor 0x13) -/
  | sar (o : Slot)
  /-- ROL (major 0x01, minor 0x14) -/
  | rol (o : Slot)
  /-- ROR (major 0x01, minor 0x15) -/
  | ror (o : Slot)
  /-- CLZ (major 0x01, minor 0x16) -/
  | clz (o : Slot)
  /-- CTZ (major 0x01, minor 0x17) -/
  | ctz (o : Slot)
  /-- POPC (major 0x01, minor 0x18) -/
  | popc (o : Slot)
  /-- BREV (major 0x01, minor 0x19) -/
  | brev (o : Slot)
  /-- BFX (major 0x01, minor 0x1A) -/
  | bfx (o : Slot)
  /-- BFXS (major 0x01, minor 0x1B) -/
  | bfxs (o : Slot)
  /-- BFI (major 0x01, minor 0x1C) -/
  | bfi (o : Slot)
  /-- SEL (major 0x01, minor 0x1D) -/
  | sel (o : Slot)
  /-- CMP (major 0x01, minor 0x1E) -/
  | cmp (o : Slot)
  /-- LEA (major 0x01, minor 0x1F) -/
  | lea (o : Slot)
  /-- MOVI (major 0x02, minor 0x00) -/
  | movi (o : Slot)
  /-- MOV (major 0x02, minor 0x01) -/
  | mov (o : Slot)
  /-- SRD (major 0x02, minor 0x02) -/
  | srd (o : Slot)
  /-- SWR (major 0x02, minor 0x03) -/
  | swr (o : Slot)
  /-- MBLK (major 0x03, minor 0x00) -/
  | mblk (o : Slot)
  /-- PART (major 0x03, minor 0x01) -/
  | part (o : Slot)
  /-- SERB (major 0x03, minor 0x02) -/
  | serb (o : Slot)
  /-- SERE (major 0x03, minor 0x03) -/
  | sere (o : Slot)
  /-- BR (major 0x04, minor 0x00) -/
  | br (o : Slot)
  /-- BRC (major 0x04, minor 0x01) -/
  | brc (o : Slot)
  /-- JMP (major 0x04, minor 0x02) -/
  | jmp (o : Slot)
  /-- CALL (major 0x04, minor 0x03) -/
  | call (o : Slot)
  /-- CALLI (major 0x04, minor 0x04) -/
  | calli (o : Slot)
  /-- RET (major 0x04, minor 0x05) -/
  | ret (o : Slot)
  /-- TRAP (major 0x05, minor 0x00) -/
  | trap (o : Slot)
  /-- ERET (major 0x05, minor 0x01) -/
  | eret (o : Slot)
  /-- GTIME (major 0x05, minor 0x02) -/
  | gtime (o : Slot)
  /-- LTIME (major 0x05, minor 0x03) -/
  | ltime (o : Slot)
  /-- IFENCE (major 0x05, minor 0x04) -/
  | ifence (o : Slot)
  /-- SVC (major 0x05, minor 0x05) -/
  | svc (o : Slot)
  /-- FADD (major 0x20, minor 0x00) -/
  | fadd (o : Slot)
  /-- FSUB (major 0x20, minor 0x01) -/
  | fsub (o : Slot)
  /-- FMUL (major 0x20, minor 0x02) -/
  | fmul (o : Slot)
  /-- FMA (major 0x20, minor 0x03) -/
  | fma (o : Slot)
  /-- FMIN (major 0x20, minor 0x04) -/
  | fmin (o : Slot)
  /-- FMAX (major 0x20, minor 0x05) -/
  | fmax (o : Slot)
  /-- FCMP (major 0x20, minor 0x06) -/
  | fcmp (o : Slot)
  /-- FCLASS (major 0x20, minor 0x07) -/
  | fclass (o : Slot)
  /-- FRINT (major 0x20, minor 0x08) -/
  | frint (o : Slot)
  /-- FRCP (major 0x21, minor 0x00) -/
  | frcp (o : Slot)
  /-- FRSQ (major 0x21, minor 0x01) -/
  | frsq (o : Slot)
  /-- FSQRT (major 0x21, minor 0x02) -/
  | fsqrt (o : Slot)
  /-- FEXP2 (major 0x21, minor 0x03) -/
  | fexp2 (o : Slot)
  /-- FLOG2 (major 0x21, minor 0x04) -/
  | flog2 (o : Slot)
  /-- FSINP (major 0x21, minor 0x05) -/
  | fsinp (o : Slot)
  /-- FCOSP (major 0x21, minor 0x06) -/
  | fcosp (o : Slot)
  /-- HADD2 (major 0x22, minor 0x00) -/
  | hadd2 (o : Slot)
  /-- HMUL2 (major 0x22, minor 0x01) -/
  | hmul2 (o : Slot)
  /-- HFMA2 (major 0x22, minor 0x02) -/
  | hfma2 (o : Slot)
  /-- HMIN2 (major 0x22, minor 0x03) -/
  | hmin2 (o : Slot)
  /-- HMAX2 (major 0x22, minor 0x04) -/
  | hmax2 (o : Slot)
  /-- HCMP2 (major 0x22, minor 0x05) -/
  | hcmp2 (o : Slot)
  /-- VADD (major 0x23, minor 0x00) -/
  | vadd (o : Slot)
  /-- VSUB (major 0x23, minor 0x01) -/
  | vsub (o : Slot)
  /-- VMUL (major 0x23, minor 0x02) -/
  | vmul (o : Slot)
  /-- VMULH (major 0x23, minor 0x03) -/
  | vmulh (o : Slot)
  /-- VMAD (major 0x23, minor 0x04) -/
  | vmad (o : Slot)
  /-- VMIN (major 0x23, minor 0x05) -/
  | vmin (o : Slot)
  /-- VMAX (major 0x23, minor 0x06) -/
  | vmax (o : Slot)
  /-- VAND (major 0x23, minor 0x07) -/
  | vand (o : Slot)
  /-- VOR (major 0x23, minor 0x08) -/
  | vor (o : Slot)
  /-- VXOR (major 0x23, minor 0x09) -/
  | vxor (o : Slot)
  /-- VSHL (major 0x23, minor 0x0A) -/
  | vshl (o : Slot)
  /-- VSHR (major 0x23, minor 0x0B) -/
  | vshr (o : Slot)
  /-- VSAR (major 0x23, minor 0x0C) -/
  | vsar (o : Slot)
  /-- VCMP (major 0x23, minor 0x0D) -/
  | vcmp (o : Slot)
  /-- VSEL (major 0x23, minor 0x0E) -/
  | vsel (o : Slot)
  /-- VADDS (major 0x23, minor 0x0F) -/
  | vadds (o : Slot)
  /-- VCLZ (major 0x24, minor 0x00) -/
  | vclz (o : Slot)
  /-- VCTZ (major 0x24, minor 0x01) -/
  | vctz (o : Slot)
  /-- VFFS (major 0x24, minor 0x02) -/
  | vffs (o : Slot)
  /-- VPOPC (major 0x24, minor 0x03) -/
  | vpopc (o : Slot)
  /-- VBREV (major 0x24, minor 0x04) -/
  | vbrev (o : Slot)
  /-- VBFX (major 0x24, minor 0x05) -/
  | vbfx (o : Slot)
  /-- VBFI (major 0x24, minor 0x06) -/
  | vbfi (o : Slot)
  /-- CVT (major 0x25, minor 0x00) -/
  | cvt (o : Slot)
  /-- CVTD (major 0x25, minor 0x01) -/
  | cvtd (o : Slot)
  /-- VSCALE (major 0x25, minor 0x02) -/
  | vscale (o : Slot)
  /-- SHFL (major 0x26, minor 0x00) -/
  | shfl (o : Slot)
  /-- SHFLX (major 0x26, minor 0x01) -/
  | shflx (o : Slot)
  /-- SHFLUP (major 0x26, minor 0x02) -/
  | shflup (o : Slot)
  /-- SHFLDN (major 0x26, minor 0x03) -/
  | shfldn (o : Slot)
  /-- GSHF (major 0x26, minor 0x04) -/
  | gshf (o : Slot)
  /-- VBCAST (major 0x26, minor 0x05) -/
  | vbcast (o : Slot)
  /-- VLANE (major 0x26, minor 0x06) -/
  | vlane (o : Slot)
  /-- VIDX (major 0x26, minor 0x07) -/
  | vidx (o : Slot)
  /-- VOTEANY (major 0x27, minor 0x00) -/
  | voteany (o : Slot)
  /-- VOTEALL (major 0x27, minor 0x01) -/
  | voteall (o : Slot)
  /-- BALLOT (major 0x27, minor 0x02) -/
  | ballot (o : Slot)
  /-- REDADD (major 0x27, minor 0x03) -/
  | redadd (o : Slot)
  /-- REDFADD (major 0x27, minor 0x04) -/
  | redfadd (o : Slot)
  /-- REDMIN (major 0x27, minor 0x05) -/
  | redmin (o : Slot)
  /-- REDMAX (major 0x27, minor 0x06) -/
  | redmax (o : Slot)
  /-- SCANADD (major 0x27, minor 0x07) -/
  | scanadd (o : Slot)
  /-- SCANFADD (major 0x27, minor 0x08) -/
  | scanfadd (o : Slot)
  /-- MATCH (major 0x27, minor 0x09) -/
  | matchLanes (o : Slot)
  /-- LD_G (major 0x60, minor 0x00) -/
  | ldG (o : Slot)
  /-- LD_L (major 0x60, minor 0x01) -/
  | ldL (o : Slot)
  /-- LD_F (major 0x60, minor 0x02) -/
  | ldF (o : Slot)
  /-- LD_R (major 0x60, minor 0x03) -/
  | ldR (o : Slot)
  /-- LDS (major 0x60, minor 0x04) -/
  | lds (o : Slot)
  /-- LDLINE (major 0x60, minor 0x05) -/
  | ldline (o : Slot)
  /-- ST_G (major 0x61, minor 0x00) -/
  | stG (o : Slot)
  /-- ST_L (major 0x61, minor 0x01) -/
  | stL (o : Slot)
  /-- ST_R (major 0x61, minor 0x02) -/
  | stR (o : Slot)
  /-- ST_R_CNT (major 0x61, minor 0x02) -/
  | stRCnt (o : Slot)
  /-- STS (major 0x61, minor 0x03) -/
  | sts (o : Slot)
  /-- ATOM_G (major 0x62, minor 0x00) -/
  | atomG (o : Slot)
  /-- ATOM_L (major 0x62, minor 0x01) -/
  | atomL (o : Slot)
  /-- ATOM_R (major 0x62, minor 0x02) -/
  | atomR (o : Slot)
  /-- ACQ (major 0x63, minor 0x00) -/
  | acq (o : Slot)
  /-- REL (major 0x63, minor 0x01) -/
  | rel (o : Slot)
  /-- FENCE (major 0x63, minor 0x02) -/
  | fence (o : Slot)
  /-- CLAIM (major 0x63, minor 0x03) -/
  | claim (o : Slot)
  /-- VOLLD (major 0x64, minor 0x00) -/
  | volld (o : Slot)
  /-- VOLST (major 0x64, minor 0x01) -/
  | volst (o : Slot)
  /-- VOLINV (major 0x64, minor 0x02) -/
  | volinv (o : Slot)
  /-- CART (major 0x65, minor 0x00) -/
  | cart (o : Slot)
  /-- CARTG (major 0x65, minor 0x01) -/
  | cartg (o : Slot)
  /-- TWAITANY (major 0x66, minor 0x00) -/
  | twaitany (o : Slot)
  /-- TWAITALL (major 0x66, minor 0x01) -/
  | twaitall (o : Slot)
  /-- TFFS (major 0x66, minor 0x02) -/
  | tffs (o : Slot)
  /-- WAITC (major 0x66, minor 0x03) -/
  | waitc (o : Slot)
  /-- BINIT (major 0x67, minor 0x00) -/
  | binit (o : Slot)
  /-- BARR (major 0x67, minor 0x01) -/
  | barr (o : Slot)
  /-- BARR_REMOTE (major 0x67, minor 0x01) -/
  | barrRemote (o : Slot)
  /-- BWAIT (major 0x67, minor 0x02) -/
  | bwait (o : Slot)
  /-- BTEST (major 0x67, minor 0x03) -/
  | btest (o : Slot)
  /-- BALE (major 0x80, minor 0x00) -/
  | bale (o : Slot)
  /-- PLZ (major 0x80, minor 0x01) -/
  | plz (o : Slot)
  /-- MLOOP (major 0x80, minor 0x02) -/
  | mloop (o : Slot)
  /-- MFENCE (major 0x80, minor 0x03) -/
  | mfence (o : Slot)
  /-- MWAIT (major 0x80, minor 0x04) -/
  | mwait (o : Slot)
  /-- MDRAIN (major 0x80, minor 0x05) -/
  | mdrain (o : Slot)
  /-- MCLR (major 0x80, minor 0x06) -/
  | mclr (o : Slot)
  /-- ACTLD (major 0x80, minor 0x07) -/
  | actld (o : Slot)
  /-- SCACC (major 0x81, minor 0x00) -/
  | scacc (o : Slot)
  /-- DRAW (major 0x90, minor 0x00) -/
  | draw (o : Slot)
  /-- RSUPD (major 0x90, minor 0x01) -/
  | rsupd (o : Slot)
  /-- RSMRG (major 0x90, minor 0x02) -/
  | rsmrg (o : Slot)
  /-- RSNRM (major 0x90, minor 0x03) -/
  | rsnrm (o : Slot)
  /-- RSLD (major 0x90, minor 0x04) -/
  | rsld (o : Slot)
  /-- RSST (major 0x90, minor 0x05) -/
  | rsst (o : Slot)
  /-- RAYQ (major 0x90, minor 0x06) -/
  | rayq (o : Slot)
  /-- RAYV (major 0x90, minor 0x07) -/
  | rayv (o : Slot)
  /-- LTREE (major 0x90, minor 0x08) -/
  | ltree (o : Slot)
  /-- TCALL (major 0x90, minor 0x09) -/
  | tcall (o : Slot)
  /-- TRET (major 0x90, minor 0x0A) -/
  | tret (o : Slot)
  /-- GROOM (major 0x90, minor 0x0B) -/
  | groom (o : Slot)
  /-- LAUNCH (major 0xA0, minor 0x00) -/
  | launch (o : Slot)
  /-- GBAR (major 0xA0, minor 0x01) -/
  | gbar (o : Slot)
  /-- STINT (major 0xA0, minor 0x02) -/
  | stint (o : Slot)
  /-- EXIT (major 0xA0, minor 0x03) -/
  | exit (o : Slot)
  /-- FETCHW (major 0xA0, minor 0x04) -/
  | fetchw (o : Slot)
  /-- SPAWN (major 0xA1, minor 0x00) -/
  | spawn (o : Slot)
  /-- SPAWN_INDIRECT (major 0xA1, minor 0x00) -/
  | spawnIndirect (o : Slot)
  /-- LREFILL (major 0xA1, minor 0x01) -/
  | lrefill (o : Slot)
  /-- TASK (major 0xA2, minor 0x00) -/
  | task (o : Slot)
  /-- TASK_RUN (major 0xA2, minor 0x00) -/
  | taskRun (o : Slot)
  /-- FWAIT (major 0xA2, minor 0x01) -/
  | fwait (o : Slot)
  /-- FSET (major 0xA2, minor 0x02) -/
  | fset (o : Slot)
  /-- LOCK (major 0xA2, minor 0x03) -/
  | lock (o : Slot)
  /-- UNLOCK (major 0xA2, minor 0x04) -/
  | unlock (o : Slot)
  /-- ENQ (major 0xA2, minor 0x05) -/
  | enq (o : Slot)
  /-- DEQ (major 0xA2, minor 0x06) -/
  | deq (o : Slot)
  /-- QWAIT (major 0xA2, minor 0x07) -/
  | qwait (o : Slot)
  /-- YBAR (major 0xA3, minor 0x00) -/
  | ybar (o : Slot)
  /-- YWAIT (major 0xA3, minor 0x01) -/
  | ywait (o : Slot)
  /-- TLBINV (major 0xA4, minor 0x00) -/
  | tlbinv (o : Slot)
  /-- TLBINV_ALL (major 0xA4, minor 0x00) -/
  | tlbinvAll (o : Slot)
  /-- PROBE_RESULT -/
  | probeResult (grp : Nat)
  /-- PROBE_LINK_LIMIT -/
  | probeLinkLimit (grp : Nat)
  /-- SECTION_ACCEPT -/
  | sectionAccept (grp : Nat)
  /-- STAGING_CHECK -/
  | stagingCheck (grp : Nat)
  /-- CREDIT_COMMIT -/
  | creditCommit (stall : Nat)
  /-- REMOTE_ACCESS_ARRIVE -/
  | remoteAccessArrive (grp : Nat)
  /-- REMOTE_REPLY -/
  | remoteReply (grp : Nat)
  /-- LOAD_COMPLETE: `lanes` are the positions of the accesses it performs -/
  | loadComplete (grp : Nat) (what : LoadPart)
  /-- STORE_ACK -/
  | storeAck (grp : Nat) (idx : Nat)
  /-- HOME_REGISTRATION -/
  | homeRegistration (stall : Nat) (word : Nat)
  /-- L1_WORD_EXPIRY -/
  | l1WordExpiry (stall : Nat) (word : Nat)
  /-- LINE_FETCH -/
  | lineFetch (grp : Nat)
  /-- CLAIM_REHOME_DONE -/
  | claimRehomeDone (grp : Nat)
  /-- SHOOTDOWN_ACK -/
  | shootdownAck (grp : Nat)
  /-- CART_START -/
  | cartStart (stall : Nat) (idx : Nat)
  /-- CART_COMPLETE -/
  | cartComplete (stall : Nat) (idx : Nat)
  /-- CARTG_COMPLETE -/
  | cartgComplete (stall : Nat) (idx : Nat)
  /-- BALE_COMPLETE -/
  | baleComplete (stall : Nat) (idx : Nat)
  /-- MLOOP_COMPLETE -/
  | mloopComplete (stall : Nat)
  /-- MDRAIN_COMPLETE -/
  | mdrainComplete (stall : Nat)
  /-- MCLR_RUN -/
  | mclrRun (stall : Nat)
  /-- RAY_QUERY_COMPLETE -/
  | rayQueryComplete (grp : Nat) (idx : Nat)
  /-- RAY_VISIT_LIMIT -/
  | rayVisitLimit (grp : Nat) (idx : Nat)
  /-- LTREE_STEP_LIMIT -/
  | ltreeStepLimit (grp : Nat) (idx : Nat)
  /-- CALLABLE_RUN_START -/
  | callableRunStart (stall : Nat)
  /-- CALLABLE_ISSUE_LIMIT -/
  | callableIssueLimit (stall : Nat)
  /-- GROOM_START -/
  | groomStart (stable : Nat)
  /-- GROOM_COMPLETE -/
  | groomComplete (stable : Nat) (idx : Nat)
  /-- GBAR_COMPLETE -/
  | gbarComplete (gang : Nat)
  /-- YARD_ROUND_RELEASE -/
  | yardRoundRelease (ctx : Nat)
  /-- LQAPPEND -/
  | lqappend (port : Nat) (queue : Nat) (value : BitVec 64)
  /-- DISTRIBUTOR_TAKE_BLOCK -/
  | distributorTakeBlock (queue : Nat)
  /-- GANG_PLACEMENT -/
  | gangPlacement
  /-- STARVATION_LIMIT -/
  | starvationLimit (queue : Nat)
  /-- FETCHW_SERVE -/
  | fetchwServe
  /-- GANG_RETIRE -/
  | gangRetire (gang : Nat) (cycles : Nat)
  /-- ISSUE_AGE_ROTATE -/
  | issueAgeRotate (grp : Nat)
  /-- PACKING_MOVE -/
  | packingMove (stall : Nat)
  /-- SPILL_MOVE -/
  | spillMove (stall : Nat)
  /-- BIN_TIMEOUT -/
  | binTimeout (stall : Nat) (bin : Nat)
  /-- BIN_GROUP_START -/
  | binGroupStart (stall : Nat)
  /-- TASK_RUN_START -/
  | taskRunStart (gang : Nat)
  /-- GROUP_PARK -/
  | groupPark (grp : Nat)
  /-- GROUP_WAKE -/
  | groupWake (grp : Nat)
  /-- GANG_REPLACEMENT -/
  | gangReplacement (gang : Nat)
  /-- STALL_ERROR_LOSS -/
  | stallErrorLoss (stall : Nat)
  /-- STALL_CHECK_MISS -/
  | stallCheckMiss (stall : Nat)
  /-- STABLE_CHECK_MISS -/
  | stableCheckMiss (stable : Nat)
  /-- STALL_HOSTING -/
  | stallHosting (stall : Nat)
  /-- GANG_RESTORE -/
  | gangRestore (gang : Nat)
  /-- BARN_LOSS -/
  | barnLoss (barn : Nat)
  /-- BARN_MOVE_COMPLETE -/
  | barnMoveComplete (barn : Nat)
  /-- DIE_LINK_FAILURE -/
  | dieLinkFailure (barn : Nat) (dir : Nat)
  /-- ECC_CORRECTED -/
  | eccCorrected (cls : CeClass) (place : Nat)
  /-- ECC_UNCORRECTABLE -/
  | eccUncorrectable (site : EccSite)
  /-- PANEL_LINK_FAILURE -/
  | panelLinkFailure (link : Nat)
  /-- PANEL_LINK_INBOUND -/
  | panelLinkInbound (link : Nat) (req : Inbound)
  /-- TIME_FIRST_SYNC -/
  | timeFirstSync (stable : Nat) (release : BitVec 64) (err : Int)
  /-- LOFF_ADJUST -/
  | loffAdjust (stable : Nat)
  /-- POWER_ON -/
  | powerOn
  /-- PANELRST -/
  | panelrst (port : Nat)
  /-- PORT_RESET -/
  | portReset (port : Nat)
  /-- PORT_LINK_DOWN_TIMEOUT -/
  | portLinkDownTimeout (port : Nat)
  /-- OWNCTL_CLAIM -/
  | ownctlClaim (ports : List Nat)
  /-- OWNCTL_HANDOVER_OFFER -/
  | ownctlHandoverOffer (port : Nat) (hport : Nat)
  /-- OWNCTL_OFFER_WITHDRAW -/
  | ownctlOfferWithdraw (port : Nat)
  /-- OWNCTL_ACCEPT -/
  | ownctlAccept (port : Nat)
  /-- OWNCTL_RELEASE -/
  | ownctlRelease (port : Nat)
  /-- LDRCTL_GO -/
  | ldrctlGo (port : Nat)
  /-- LOADER_VERIFY_DONE -/
  | loaderVerifyDone
  /-- ATTCTL_REQ -/
  | attctlReq (port : Nat)
  /-- ATTESTATION_REPORT_DONE -/
  | attestationReportDone
  /-- TLBSHOOT -/
  | tlbshoot (port : Nat) (value : BitVec 64)
  /-- TLBSHOOT_ACK -/
  | tlbshootAck
  /-- TMAPSYNC -/
  | tmapsync (port : Nat)
  /-- TMAPSYNC_DONE -/
  | tmapsyncDone
  /-- MEMCFG_WRITE -/
  | memcfgWrite (port : Nat) (value : BitVec 64)
  /-- PREEMPT_GO -/
  | preemptGo (port : Nat) (k : Nat) (lid : BitVec 32)
  /-- PREEMPT_LIFT -/
  | preemptLift (port : Nat) (k : Nat)
  /-- TFDONE_RETRY -/
  | tfdoneRetry (port : Nat) (seq : BitVec 16)
  /-- TFDONE_DENY -/
  | tfdoneDeny (port : Nat) (seq : BitVec 16)
  /-- TFDONE_END -/
  | tfdoneEnd (port : Nat) (seq : BitVec 16)
  /-- EVPTR_HEAD_WRITE -/
  | evptrHeadWrite (port : Nat) (value : BitVec 64)
  /-- LOFT_WRITE -/
  | loftWrite (port : Nat) (off : Nat) (bytes : List (BitVec 8))
  /-- HOST_BAR2_WRITE -/
  | hostBar2Write (port : Nat) (what : HostWrite) (bytes : List (BitVec 8))
  /-- HOST_BAR2_READ -/
  | hostBar2Read (port : Nat) (what : HostRead) (n : Nat)
  /-- DBGCTL_ATTACH -/
  | dbgctlAttach (port : Nat)
  /-- DBGCTL_HALT_REQUEST -/
  | dbgctlHaltRequest (port : Nat)
  /-- DBGCTL_STEP -/
  | dbgctlStep (port : Nat)
  /-- DBGCTL_RUN -/
  | dbgctlRun (port : Nat)
  /-- DBGCTL_DETACH -/
  | dbgctlDetach (port : Nat)
  /-- CE_COUNTER_CLEAR -/
  | ceCounterClear (port : Nat) (cls : CeClass) (place : Nat)
  /-- REGISTER_WRITE -/
  | registerWrite (port : Nat) (off : Nat) (value : BitVec 64)
  /-- PORT_LINK_DOWN -/
  | portLinkDown (port : Nat)
  /-- PORT_LINK_UP -/
  | portLinkUp (up : PortUp)
  /-- PANEL_LINK_TRAINED -/
  | panelLinkTrained (link : Nat) (peer : Peer)
  /-- ZERO_LENGTH_READ_COMPLETION -/
  | zeroLengthReadCompletion (port : Nat)
  /-- PANEL_TIME_TICK -/
  | panelTimeTick
  /-- STALL_CYCLE -/
  | stallCycle (stall : Nat) (counts : List Nat)
  deriving DecidableEq, Repr

end Sys2Proof
end

