-- ==== Sys2Proof/Machine/Forms.lean ====
section
/-!
DEFINITION. The encoding tables of R263, R269, R288, R311, R334, R352 and R374 as one form per mnemonic, the fields of
the modifier (R259, R303, R310, R335, R336, R353), and the checks of R264 that an instruction's bits alone decide.
-/

namespace Sys2Proof

/-- How an instruction uses IMM (R258): not at all, when an operand is of kind 10, or in every form. -/
inductive ImmUse where
  | none | opnd | always
  deriving DecidableEq, Repr

/-- What the WID field must hold (R262, R303). -/
inductive WidRule where
  | zero | agree | lane
  deriving DecidableEq, Repr

/-- How many consecutive vector registers a vector operand names, and their base alignment (R74, R320, R354). -/
inductive RegGroup where
  | one | ty | srcTy | lane | two | three | four | eight | vol | atom | matchD
  deriving DecidableEq, Repr

/-- The pairing classes (R253). -/
inductive PairClass where
  | free | s | v | m | mem | solo
  deriving DecidableEq, Repr

/-- One row of the encoding tables: the opcode, the kinds each operand takes (none: the field must be zero), the
modifier bits it uses, its accepted types (none: it has no TYPE), its use of WID and IMM, its pairing class, and the
vector registers its operands name. -/
structure Form where
  major : Nat
  minor : Nat
  dst : List Kind
  a : List Kind
  b : List Kind
  c : List Kind
  modMask : BitVec 18
  types : List ETy
  wid : WidRule
  imm : ImmUse
  cls : PairClass
  gd : RegGroup
  ga : RegGroup
  gb : RegGroup
  gc : RegGroup
  deriving DecidableEq, Repr

/-- The integer types of major 0x01 (R269). -/
def tyInt : List ETy := [.s8, .n8, .s16, .n16, .s32, .n32, .s64, .n64]
def tySigned : List ETy := [.s8, .s16, .s32, .s64]
def tyUnsigned : List ETy := [.n8, .n16, .n32, .n64]
def tyWide : List ETy := [.s32, .n32, .s64, .n64]
/-- The types of loads and stores, codes 0x00 to 0x0C (R313). -/
def tyMem : List ETy := [.s8, .n8, .s16, .n16, .s32, .n32, .s64, .n64, .f32, .f16, .bf16, .e4m3, .e5m2]
/-- The types of CVT and CVTD (R289). -/
def tyCvt : List ETy :=
  [.s2, .s4, .s8, .n8, .s16, .n16, .s32, .n32, .s64, .n64, .f32, .f16, .bf16, .e4m3, .e5m2, .e8m0]

/-- The type codes (R52, R56, R63); 0x11 to 0x1F are reserved (R259). -/
def ETy.ofCode : Nat → Option ETy
  | 0x00 => some .s8 | 0x01 => some .n8 | 0x02 => some .s16 | 0x03 => some .n16
  | 0x04 => some .s32 | 0x05 => some .n32 | 0x06 => some .s64 | 0x07 => some .n64
  | 0x08 => some .f32 | 0x09 => some .f16 | 0x0A => some .bf16 | 0x0B => some .e4m3
  | 0x0C => some .e5m2 | 0x0D => some .o4 | 0x0E => some .s4 | 0x0F => some .s2
  | 0x10 => some .e8m0 | _ => none

/-- The width of an element in bits (R52, R56, R63). -/
def ETy.bits : ETy → Nat
  | .s2 => 2 | .s4 => 4 | .o4 => 4
  | .s8 => 8 | .n8 => 8 | .e4m3 => 8 | .e5m2 => 8 | .e8m0 => 8
  | .s16 => 16 | .n16 => 16 | .f16 => 16 | .bf16 => 16
  | .s32 => 32 | .n32 => 32 | .f32 => 32
  | .s64 => 64 | .n64 => 64

/-- Its width in bytes. -/
def ETy.bytes (t : ETy) : Nat := t.bits / 8

/-- The signed integer formats (R52). -/
def ETy.signed : ETy → Bool
  | .s2 => true | .s4 => true | .s8 => true | .s16 => true | .s32 => true | .s64 => true
  | _ => false

/-- The float formats (R56). -/
def ETy.isFloat : ETy → Bool
  | .f32 => true | .f16 => true | .bf16 => true | .e4m3 => true | .e5m2 => true | .e8m0 => true
  | _ => false

/-- The WID code that agrees with a type (R262). -/
def ETy.wid (t : ETy) : Nat :=
  if t = .e8m0 then 0 else
  match t.bits with
  | 8 => 2 | 16 => 1 | 64 => 3 | _ => 0

/-! The fields of the modifier: slot bit 32 is modifier bit 0. -/

def Slot.tyCode (o : Slot) : Nat := (o.mod.extractLsb' 13 5).toNat
/-- TYPE, [49:45] (R259). -/
def Slot.ty? (o : Slot) : Option ETy := ETy.ofCode o.tyCode
/-- TYPE of an instruction whose type has been checked. -/
def Slot.ty (o : Slot) : ETy := o.ty?.getD .s32
def Slot.rnd (o : Slot) : Nat := (o.mod.extractLsb' 11 2).toNat
def Slot.ovf (o : Slot) : Nat := (o.mod.extractLsb' 9 2).toNat
def Slot.cond (o : Slot) : Nat := (o.mod.extractLsb' 6 3).toNat
def Slot.negA (o : Slot) : Bool := o.mod.getLsbD 2
def Slot.absA (o : Slot) : Bool := o.mod.getLsbD 3
def Slot.negB (o : Slot) : Bool := o.mod.getLsbD 4
def Slot.absB (o : Slot) : Bool := o.mod.getLsbD 5
def Slot.wid (o : Slot) : Nat := (o.mod.extractLsb' 0 2).toNat
/-- ORD, [44:42] (R310): 0 plain, 1 relaxed, 2 acquire, 3 release, 4 acquire-release. -/
def Slot.ord (o : Slot) : Nat := (o.mod.extractLsb' 10 3).toNat
/-- ORD 010 (R310). -/
def Slot.isAcquire (o : Slot) : Bool := o.ord = 2
/-- ORD 011 or 100 (R310): a boundary. -/
def Slot.isRelease (o : Slot) : Bool := 3 ≤ o.ord
/-- AOP, [41:38] (R310, R316). -/
def Slot.aop (o : Slot) : Nat := (o.mod.extractLsb' 6 4).toNat
/-- CNT, [37] (R310). -/
def Slot.cnt (o : Slot) : Bool := o.mod.getLsbD 5
/-- SPACE, [36:35] (R310). -/
def Slot.space (o : Slot) : Nat := (o.mod.extractLsb' 3 2).toNat
/-- Bit [34]: NORET (R310), FLG (R353), FILL (R303), RUN and ALL (R374). -/
def Slot.bit34 (o : Slot) : Bool := o.mod.getLsbD 2
/-- VSZ, [49:47] (R310). -/
def Slot.vsz (o : Slot) : Nat := (o.mod.extractLsb' 15 3).toNat
/-- BANK, [39:38] (R334 to R336). -/
def Slot.bank (o : Slot) : Nat := (o.mod.extractLsb' 6 2).toNat
/-- FREE, [36] (R334, R336). -/
def Slot.free (o : Slot) : Bool := o.mod.getLsbD 4
def Slot.pam (o : Slot) : Nat := (o.mod.extractLsb' 14 4).toNat
def Slot.pbm (o : Slot) : Nat := (o.mod.extractLsb' 10 4).toNat
def Slot.ao4 (o : Slot) : Bool := o.mod.getLsbD 9
def Slot.bo4 (o : Slot) : Bool := o.mod.getLsbD 8
def Slot.actt (o : Slot) : Nat := (o.mod.extractLsb' 11 2).toNat
def Slot.bias (o : Slot) : Bool := o.mod.getLsbD 10
def Slot.act (o : Slot) : Bool := o.mod.getLsbD 9
def Slot.rq (o : Slot) : Bool := o.mod.getLsbD 8
def Slot.clr (o : Slot) : Bool := o.mod.getLsbD 5
def Slot.exp (o : Slot) : Bool := o.mod.getLsbD 3
/-- Ts and SEL of CVT, Ts of CVTD (R288). -/
def Slot.srcTy? (o : Slot) : Option ETy := ETy.ofCode (o.imm.extractLsb' 0 5).toNat
def Slot.srcTy (o : Slot) : ETy := o.srcTy?.getD .s32
def Slot.sel (o : Slot) : Nat := (o.imm.extractLsb' 5 4).toNat
/-- Operand B or C takes IMM (R257), so a displacement is 0 (R311). -/
def Slot.immTaken (o : Slot) : Bool := o.b.kind = .i || o.c.kind = .i
/-- The displacement SEXT(IMM, 32) of a memory operand, 0 where an operand takes IMM (R311, R312). -/
def Slot.disp (o : Slot) : BitVec 64 := if o.immTaken then 0 else o.imm.signExtend 64

/-- The form and the slot of an encoded instruction; the panel's events have none. LDS and STS take a WID that agrees with TYPE, as
R310's table of fields has it, where the last sentence of R262 gives scalar instructions WID 00 (DEDUCED, log 86). -/
def Instr.encoded : Instr → Option (Form × Slot)
  | .nop o => some (⟨0x00, 0x00, [], [], [], [], 0x00000, [], .zero, .none, .free, .one, .one, .one, .one⟩, o)
  | .brk o => some (⟨0x00, 0x01, [], [], [], [], 0x00000, [], .zero, .none, .solo, .one, .one, .one, .one⟩, o)
  | .add o => some (⟨0x01, 0x00, [.s], [.s], [.s, .i], [], 0x3E000, tyInt, .zero, .opnd, .s, .one, .one, .one, .one⟩, o)
  | .sub o => some (⟨0x01, 0x01, [.s], [.s], [.s, .i], [], 0x3E000, tyInt, .zero, .opnd, .s, .one, .one, .one, .one⟩, o)
  | .mul o => some (⟨0x01, 0x02, [.s], [.s], [.s, .i], [], 0x3E000, tyInt, .zero, .opnd, .s, .one, .one, .one, .one⟩, o)
  | .mulh o => some (⟨0x01, 0x03, [.s], [.s], [.s, .i], [], 0x3E000, tySigned, .zero, .opnd, .s, .one, .one, .one, .one⟩, o)
  | .mulhn o => some (⟨0x01, 0x04, [.s], [.s], [.s, .i], [], 0x3E000, tyUnsigned, .zero, .opnd, .s, .one, .one, .one, .one⟩, o)
  | .div o => some (⟨0x01, 0x05, [.s], [.s], [.s, .i], [], 0x3E000, tySigned, .zero, .opnd, .s, .one, .one, .one, .one⟩, o)
  | .divn o => some (⟨0x01, 0x06, [.s], [.s], [.s, .i], [], 0x3E000, tyUnsigned, .zero, .opnd, .s, .one, .one, .one, .one⟩, o)
  | .rem o => some (⟨0x01, 0x07, [.s], [.s], [.s, .i], [], 0x3E000, tySigned, .zero, .opnd, .s, .one, .one, .one, .one⟩, o)
  | .remn o => some (⟨0x01, 0x08, [.s], [.s], [.s, .i], [], 0x3E000, tyUnsigned, .zero, .opnd, .s, .one, .one, .one, .one⟩, o)
  | .min o => some (⟨0x01, 0x09, [.s], [.s], [.s, .i], [], 0x3E000, tySigned, .zero, .opnd, .s, .one, .one, .one, .one⟩, o)
  | .max o => some (⟨0x01, 0x0A, [.s], [.s], [.s, .i], [], 0x3E000, tySigned, .zero, .opnd, .s, .one, .one, .one, .one⟩, o)
  | .minn o => some (⟨0x01, 0x0B, [.s], [.s], [.s, .i], [], 0x3E000, tyUnsigned, .zero, .opnd, .s, .one, .one, .one, .one⟩, o)
  | .maxn o => some (⟨0x01, 0x0C, [.s], [.s], [.s, .i], [], 0x3E000, tyUnsigned, .zero, .opnd, .s, .one, .one, .one, .one⟩, o)
  | .and o => some (⟨0x01, 0x0D, [.s], [.s], [.s, .i], [], 0x3E000, tyInt, .zero, .opnd, .s, .one, .one, .one, .one⟩, o)
  | .or o => some (⟨0x01, 0x0E, [.s], [.s], [.s, .i], [], 0x3E000, tyInt, .zero, .opnd, .s, .one, .one, .one, .one⟩, o)
  | .xor o => some (⟨0x01, 0x0F, [.s], [.s], [.s, .i], [], 0x3E000, tyInt, .zero, .opnd, .s, .one, .one, .one, .one⟩, o)
  | .andn o => some (⟨0x01, 0x10, [.s], [.s], [.s, .i], [], 0x3E000, tyInt, .zero, .opnd, .s, .one, .one, .one, .one⟩, o)
  | .shl o => some (⟨0x01, 0x11, [.s], [.s], [.s, .i], [], 0x3E000, tyInt, .zero, .opnd, .s, .one, .one, .one, .one⟩, o)
  | .shr o => some (⟨0x01, 0x12, [.s], [.s], [.s, .i], [], 0x3E000, tyInt, .zero, .opnd, .s, .one, .one, .one, .one⟩, o)
  | .sar o => some (⟨0x01, 0x13, [.s], [.s], [.s, .i], [], 0x3E000, tyInt, .zero, .opnd, .s, .one, .one, .one, .one⟩, o)
  | .rol o => some (⟨0x01, 0x14, [.s], [.s], [.s, .i], [], 0x3E000, tyInt, .zero, .opnd, .s, .one, .one, .one, .one⟩, o)
  | .ror o => some (⟨0x01, 0x15, [.s], [.s], [.s, .i], [], 0x3E000, tyInt, .zero, .opnd, .s, .one, .one, .one, .one⟩, o)
  | .clz o => some (⟨0x01, 0x16, [.s], [.s], [], [], 0x3E000, tyInt, .zero, .none, .s, .one, .one, .one, .one⟩, o)
  | .ctz o => some (⟨0x01, 0x17, [.s], [.s], [], [], 0x3E000, tyInt, .zero, .none, .s, .one, .one, .one, .one⟩, o)
  | .popc o => some (⟨0x01, 0x18, [.s], [.s], [], [], 0x3E000, tyInt, .zero, .none, .s, .one, .one, .one, .one⟩, o)
  | .brev o => some (⟨0x01, 0x19, [.s], [.s], [], [], 0x3E000, tyInt, .zero, .none, .s, .one, .one, .one, .one⟩, o)
  | .bfx o => some (⟨0x01, 0x1A, [.s], [.s], [.s, .i], [], 0x3E000, tyInt, .zero, .opnd, .s, .one, .one, .one, .one⟩, o)
  | .bfxs o => some (⟨0x01, 0x1B, [.s], [.s], [.s, .i], [], 0x3E000, tyInt, .zero, .opnd, .s, .one, .one, .one, .one⟩, o)
  | .bfi o => some (⟨0x01, 0x1C, [.s], [.s], [.s, .i], [.s, .i], 0x3E000, tyInt, .zero, .opnd, .s, .one, .one, .one, .one⟩, o)
  | .sel o => some (⟨0x01, 0x1D, [.s], [.s], [.s, .i], [.s, .i], 0x3E000, tyInt, .zero, .opnd, .s, .one, .one, .one, .one⟩, o)
  | .cmp o => some (⟨0x01, 0x1E, [.s], [.s], [.s, .i], [], 0x3E1C0, tyInt, .zero, .opnd, .s, .one, .one, .one, .one⟩, o)
  | .lea o => some (⟨0x01, 0x1F, [.s], [.s], [.s], [.i], 0x3E000, tyInt, .zero, .always, .s, .one, .one, .one, .one⟩, o)
  | .movi o => some (⟨0x02, 0x00, [.s], [], [], [], 0x3FFFF, [], .zero, .always, .s, .one, .one, .one, .one⟩, o)
  | .mov o => some (⟨0x02, 0x01, [.s], [.s], [], [], 0x00000, [], .zero, .none, .s, .one, .one, .one, .one⟩, o)
  | .srd o => some (⟨0x02, 0x02, [.s], [.x], [], [], 0x00000, [], .zero, .none, .s, .one, .one, .one, .one⟩, o)
  | .swr o => some (⟨0x02, 0x03, [.x], [.s], [], [], 0x00000, [], .zero, .none, .s, .one, .one, .one, .one⟩, o)
  | .mblk o => some (⟨0x03, 0x00, [], [.s], [], [], 0x00000, [], .zero, .always, .s, .one, .one, .one, .one⟩, o)
  | .part o => some (⟨0x03, 0x01, [], [], [.s, .i], [], 0x00000, [], .zero, .opnd, .s, .one, .one, .one, .one⟩, o)
  | .serb o => some (⟨0x03, 0x02, [.s], [], [], [], 0x00000, [], .zero, .always, .solo, .one, .one, .one, .one⟩, o)
  | .sere o => some (⟨0x03, 0x03, [], [.s], [], [], 0x00000, [], .zero, .always, .solo, .one, .one, .one, .one⟩, o)
  | .br o => some (⟨0x04, 0x00, [], [], [], [], 0x00000, [], .zero, .always, .s, .one, .one, .one, .one⟩, o)
  | .brc o => some (⟨0x04, 0x01, [], [.s], [.s], [], 0x3E1C0, tyInt, .zero, .always, .s, .one, .one, .one, .one⟩, o)
  | .jmp o => some (⟨0x04, 0x02, [], [.s], [], [], 0x00000, [], .zero, .none, .s, .one, .one, .one, .one⟩, o)
  | .call o => some (⟨0x04, 0x03, [.s], [], [], [], 0x00000, [], .zero, .always, .solo, .one, .one, .one, .one⟩, o)
  | .calli o => some (⟨0x04, 0x04, [.s], [.s], [], [], 0x00000, [], .zero, .none, .solo, .one, .one, .one, .one⟩, o)
  | .ret o => some (⟨0x04, 0x05, [], [.s], [], [], 0x00000, [], .zero, .none, .solo, .one, .one, .one, .one⟩, o)
  | .trap o => some (⟨0x05, 0x00, [], [], [], [], 0x00000, [], .zero, .always, .solo, .one, .one, .one, .one⟩, o)
  | .eret o => some (⟨0x05, 0x01, [], [], [], [], 0x00000, [], .zero, .none, .solo, .one, .one, .one, .one⟩, o)
  | .gtime o => some (⟨0x05, 0x02, [.s], [], [], [], 0x00000, [], .zero, .none, .solo, .one, .one, .one, .one⟩, o)
  | .ltime o => some (⟨0x05, 0x03, [.s], [], [], [], 0x00000, [], .zero, .none, .solo, .one, .one, .one, .one⟩, o)
  | .ifence o => some (⟨0x05, 0x04, [], [], [], [], 0x00000, [], .zero, .none, .solo, .one, .one, .one, .one⟩, o)
  | .svc o => some (⟨0x05, 0x05, [], [], [], [], 0x00000, [], .zero, .always, .solo, .one, .one, .one, .one⟩, o)
  | .fadd o => some (⟨0x20, 0x00, [.v], [.v, .s], [.v, .s, .i], [], 0x3F83C, [.f32], .agree, .opnd, .v, .one, .one, .one, .one⟩, o)
  | .fsub o => some (⟨0x20, 0x01, [.v], [.v, .s], [.v, .s, .i], [], 0x3F83C, [.f32], .agree, .opnd, .v, .one, .one, .one, .one⟩, o)
  | .fmul o => some (⟨0x20, 0x02, [.v], [.v, .s], [.v, .s, .i], [], 0x3F83C, [.f32], .agree, .opnd, .v, .one, .one, .one, .one⟩, o)
  | .fma o => some (⟨0x20, 0x03, [.v], [.v, .s], [.v, .s, .i], [.v, .s, .i], 0x3F83C, [.f32], .agree, .opnd, .v, .one, .one, .one, .one⟩, o)
  | .fmin o => some (⟨0x20, 0x04, [.v], [.v, .s], [.v, .s, .i], [], 0x3F83C, [.f32], .agree, .opnd, .v, .one, .one, .one, .one⟩, o)
  | .fmax o => some (⟨0x20, 0x05, [.v], [.v, .s], [.v, .s, .i], [], 0x3F83C, [.f32], .agree, .opnd, .v, .one, .one, .one, .one⟩, o)
  | .fcmp o => some (⟨0x20, 0x06, [.v], [.v, .s], [.v, .s, .i], [], 0x3E1FC, [.f32], .agree, .opnd, .v, .one, .one, .one, .one⟩, o)
  | .fclass o => some (⟨0x20, 0x07, [.v], [.v, .s], [], [], 0x3E000, [.f32], .agree, .none, .v, .one, .one, .one, .one⟩, o)
  | .frint o => some (⟨0x20, 0x08, [.v], [.v, .s], [], [], 0x3F80C, [.f32], .agree, .none, .v, .one, .one, .one, .one⟩, o)
  | .frcp o => some (⟨0x21, 0x00, [.v], [.v, .s], [], [], 0x3E00C, [.f32], .agree, .none, .v, .one, .one, .one, .one⟩, o)
  | .frsq o => some (⟨0x21, 0x01, [.v], [.v, .s], [], [], 0x3E00C, [.f32], .agree, .none, .v, .one, .one, .one, .one⟩, o)
  | .fsqrt o => some (⟨0x21, 0x02, [.v], [.v, .s], [], [], 0x3F80C, [.f32], .agree, .none, .v, .one, .one, .one, .one⟩, o)
  | .fexp2 o => some (⟨0x21, 0x03, [.v], [.v, .s], [], [], 0x3E00C, [.f32], .agree, .none, .v, .one, .one, .one, .one⟩, o)
  | .flog2 o => some (⟨0x21, 0x04, [.v], [.v, .s], [], [], 0x3E00C, [.f32], .agree, .none, .v, .one, .one, .one, .one⟩, o)
  | .fsinp o => some (⟨0x21, 0x05, [.v], [.v, .s], [], [], 0x3E00C, [.f32], .agree, .none, .v, .one, .one, .one, .one⟩, o)
  | .fcosp o => some (⟨0x21, 0x06, [.v], [.v, .s], [], [], 0x3E00C, [.f32], .agree, .none, .v, .one, .one, .one, .one⟩, o)
  | .hadd2 o => some (⟨0x22, 0x00, [.v], [.v, .s], [.v, .s, .i], [], 0x3F83F, [.f16, .bf16], .agree, .opnd, .v, .one, .one, .one, .one⟩, o)
  | .hmul2 o => some (⟨0x22, 0x01, [.v], [.v, .s], [.v, .s, .i], [], 0x3F83F, [.f16, .bf16], .agree, .opnd, .v, .one, .one, .one, .one⟩, o)
  | .hfma2 o => some (⟨0x22, 0x02, [.v], [.v, .s], [.v, .s, .i], [.v, .s, .i], 0x3F83F, [.f16, .bf16], .agree, .opnd, .v, .one, .one, .one, .one⟩, o)
  | .hmin2 o => some (⟨0x22, 0x03, [.v], [.v, .s], [.v, .s, .i], [], 0x3F83F, [.f16, .bf16], .agree, .opnd, .v, .one, .one, .one, .one⟩, o)
  | .hmax2 o => some (⟨0x22, 0x04, [.v], [.v, .s], [.v, .s, .i], [], 0x3F83F, [.f16, .bf16], .agree, .opnd, .v, .one, .one, .one, .one⟩, o)
  | .hcmp2 o => some (⟨0x22, 0x05, [.v], [.v, .s], [.v, .s, .i], [], 0x3E1FF, [.f16, .bf16], .agree, .opnd, .v, .one, .one, .one, .one⟩, o)
  | .vadd o => some (⟨0x23, 0x00, [.v], [.v, .s], [.v, .s, .i], [], 0x3E003, tyInt, .agree, .opnd, .v, .ty, .ty, .ty, .ty⟩, o)
  | .vsub o => some (⟨0x23, 0x01, [.v], [.v, .s], [.v, .s, .i], [], 0x3E003, tyInt, .agree, .opnd, .v, .ty, .ty, .ty, .ty⟩, o)
  | .vmul o => some (⟨0x23, 0x02, [.v], [.v, .s], [.v, .s, .i], [], 0x3E003, tyInt, .agree, .opnd, .v, .ty, .ty, .ty, .ty⟩, o)
  | .vmulh o => some (⟨0x23, 0x03, [.v], [.v, .s], [.v, .s, .i], [], 0x3E003, tyInt, .agree, .opnd, .v, .ty, .ty, .ty, .ty⟩, o)
  | .vmad o => some (⟨0x23, 0x04, [.v], [.v, .s], [.v, .s, .i], [.v, .s, .i], 0x3E003, tyInt, .agree, .opnd, .v, .ty, .ty, .ty, .ty⟩, o)
  | .vmin o => some (⟨0x23, 0x05, [.v], [.v, .s], [.v, .s, .i], [], 0x3E003, tyInt, .agree, .opnd, .v, .ty, .ty, .ty, .ty⟩, o)
  | .vmax o => some (⟨0x23, 0x06, [.v], [.v, .s], [.v, .s, .i], [], 0x3E003, tyInt, .agree, .opnd, .v, .ty, .ty, .ty, .ty⟩, o)
  | .vand o => some (⟨0x23, 0x07, [.v], [.v, .s], [.v, .s, .i], [], 0x3E003, tyInt, .agree, .opnd, .v, .ty, .ty, .ty, .ty⟩, o)
  | .vor o => some (⟨0x23, 0x08, [.v], [.v, .s], [.v, .s, .i], [], 0x3E003, tyInt, .agree, .opnd, .v, .ty, .ty, .ty, .ty⟩, o)
  | .vxor o => some (⟨0x23, 0x09, [.v], [.v, .s], [.v, .s, .i], [], 0x3E003, tyInt, .agree, .opnd, .v, .ty, .ty, .ty, .ty⟩, o)
  | .vshl o => some (⟨0x23, 0x0A, [.v], [.v, .s], [.v, .s, .i], [], 0x3E003, tyInt, .agree, .opnd, .v, .ty, .ty, .ty, .ty⟩, o)
  | .vshr o => some (⟨0x23, 0x0B, [.v], [.v, .s], [.v, .s, .i], [], 0x3E003, tyInt, .agree, .opnd, .v, .ty, .ty, .ty, .ty⟩, o)
  | .vsar o => some (⟨0x23, 0x0C, [.v], [.v, .s], [.v, .s, .i], [], 0x3E003, tyInt, .agree, .opnd, .v, .ty, .ty, .ty, .ty⟩, o)
  | .vcmp o => some (⟨0x23, 0x0D, [.v], [.v, .s], [.v, .s, .i], [], 0x3E1C3, tyInt, .agree, .opnd, .v, .ty, .ty, .ty, .ty⟩, o)
  | .vsel o => some (⟨0x23, 0x0E, [.v], [.v, .s], [.v, .s, .i], [.v, .s, .i], 0x3E003, tyInt, .agree, .opnd, .v, .ty, .ty, .ty, .ty⟩, o)
  | .vadds o => some (⟨0x23, 0x0F, [.v], [.v, .s], [.v, .s, .i], [], 0x3E003, tyInt, .agree, .opnd, .v, .ty, .ty, .ty, .ty⟩, o)
  | .vclz o => some (⟨0x24, 0x00, [.v], [.v, .s], [], [], 0x3E003, tyInt, .agree, .none, .v, .ty, .ty, .ty, .ty⟩, o)
  | .vctz o => some (⟨0x24, 0x01, [.v], [.v, .s], [], [], 0x3E003, tyInt, .agree, .none, .v, .ty, .ty, .ty, .ty⟩, o)
  | .vffs o => some (⟨0x24, 0x02, [.v], [.v, .s], [], [], 0x3E003, tyInt, .agree, .none, .v, .ty, .ty, .ty, .ty⟩, o)
  | .vpopc o => some (⟨0x24, 0x03, [.v], [.v, .s], [], [], 0x3E003, tyInt, .agree, .none, .v, .ty, .ty, .ty, .ty⟩, o)
  | .vbrev o => some (⟨0x24, 0x04, [.v], [.v, .s], [], [], 0x3E003, tyInt, .agree, .none, .v, .ty, .ty, .ty, .ty⟩, o)
  | .vbfx o => some (⟨0x24, 0x05, [.v], [.v, .s], [.v, .s, .i], [], 0x3E003, tyWide, .agree, .opnd, .v, .ty, .ty, .ty, .ty⟩, o)
  | .vbfi o => some (⟨0x24, 0x06, [.v], [.v, .s], [.v, .s, .i], [.v, .s, .i], 0x3E003, tyWide, .agree, .opnd, .v, .ty, .ty, .ty, .ty⟩, o)
  | .cvt o => some (⟨0x25, 0x00, [.v], [.v, .s], [], [], 0x3FE03, tyCvt, .agree, .always, .v, .ty, .srcTy, .one, .one⟩, o)
  | .cvtd o => some (⟨0x25, 0x01, [.v], [.v, .s], [.v, .s], [], 0x3FE03, tyCvt, .agree, .always, .v, .one, .one, .one, .one⟩, o)
  | .vscale o => some (⟨0x25, 0x02, [.v], [.v, .s], [.v, .s, .i], [], 0x3F80F, [.f32, .f16, .bf16], .agree, .opnd, .v, .one, .one, .one, .one⟩, o)
  | .shfl o => some (⟨0x26, 0x00, [.v], [.v], [.v, .s, .i], [], 0x00007, [], .lane, .opnd, .v, .lane, .lane, .one, .one⟩, o)
  | .shflx o => some (⟨0x26, 0x01, [.v], [.v], [.v, .s, .i], [], 0x00007, [], .lane, .opnd, .v, .lane, .lane, .one, .one⟩, o)
  | .shflup o => some (⟨0x26, 0x02, [.v], [.v], [.v, .s, .i], [], 0x00007, [], .lane, .opnd, .v, .lane, .lane, .one, .one⟩, o)
  | .shfldn o => some (⟨0x26, 0x03, [.v], [.v], [.v, .s, .i], [], 0x00007, [], .lane, .opnd, .v, .lane, .lane, .one, .one⟩, o)
  | .gshf o => some (⟨0x26, 0x04, [.v], [.v], [.s], [.v, .s, .i], 0x00007, [], .lane, .opnd, .v, .lane, .lane, .one, .one⟩, o)
  | .vbcast o => some (⟨0x26, 0x05, [.v], [.v], [.s, .i], [], 0x00007, [], .lane, .opnd, .v, .lane, .lane, .one, .one⟩, o)
  | .vlane o => some (⟨0x26, 0x06, [.s], [.v], [.s, .i], [], 0x00003, [], .lane, .opnd, .v, .lane, .lane, .one, .one⟩, o)
  | .vidx o => some (⟨0x26, 0x07, [.v], [], [.s, .i], [], 0x00000, [], .zero, .opnd, .v, .one, .one, .one, .one⟩, o)
  | .voteany o => some (⟨0x27, 0x00, [.v], [.v], [], [], 0x00000, [], .zero, .none, .v, .one, .one, .one, .one⟩, o)
  | .voteall o => some (⟨0x27, 0x01, [.v], [.v], [], [], 0x00000, [], .zero, .none, .v, .one, .one, .one, .one⟩, o)
  | .ballot o => some (⟨0x27, 0x02, [.s], [.v], [], [], 0x00000, [], .zero, .none, .v, .one, .one, .one, .one⟩, o)
  | .redadd o => some (⟨0x27, 0x03, [.v], [.v], [], [], 0x3E003, tyWide, .agree, .none, .v, .ty, .ty, .one, .one⟩, o)
  | .redfadd o => some (⟨0x27, 0x04, [.v], [.v], [], [], 0x3F800, [.f32], .agree, .none, .v, .ty, .ty, .one, .one⟩, o)
  | .redmin o => some (⟨0x27, 0x05, [.v], [.v], [], [], 0x3E003, [.s32, .n32, .s64, .n64, .f32], .agree, .none, .v, .ty, .ty, .one, .one⟩, o)
  | .redmax o => some (⟨0x27, 0x06, [.v], [.v], [], [], 0x3E003, [.s32, .n32, .s64, .n64, .f32], .agree, .none, .v, .ty, .ty, .one, .one⟩, o)
  | .scanadd o => some (⟨0x27, 0x07, [.v], [.v], [], [], 0x3E003, tyWide, .agree, .none, .v, .ty, .ty, .one, .one⟩, o)
  | .scanfadd o => some (⟨0x27, 0x08, [.v], [.v], [], [], 0x3F800, [.f32], .agree, .none, .v, .ty, .ty, .one, .one⟩, o)
  | .matchLanes o => some (⟨0x27, 0x09, [.v], [.v], [], [], 0x3E003, [.n32, .n64], .agree, .none, .v, .matchD, .ty, .one, .one⟩, o)
  | .ldG o => some (⟨0x60, 0x00, [.v], [.v, .s], [], [], 0x3FC03, tyMem, .agree, .always, .mem, .ty, .two, .one, .one⟩, o)
  | .ldL o => some (⟨0x60, 0x01, [.v], [.v, .s], [], [], 0x3FC03, tyMem, .agree, .always, .mem, .ty, .one, .one, .one⟩, o)
  | .ldF o => some (⟨0x60, 0x02, [.v], [.v, .s], [], [], 0x3FC03, tyMem, .agree, .always, .mem, .ty, .one, .one, .one⟩, o)
  | .ldR o => some (⟨0x60, 0x03, [.v], [.v, .s], [], [.v, .s], 0x3FC03, tyMem, .agree, .always, .mem, .ty, .one, .one, .one⟩, o)
  | .lds o => some (⟨0x60, 0x04, [.s], [.s], [], [], 0x3FC1B, tyMem, .agree, .always, .mem, .one, .one, .one, .one⟩, o)
  | .ldline o => some (⟨0x60, 0x05, [.v], [.s], [], [], 0x01C00, [], .zero, .always, .mem, .one, .one, .one, .one⟩, o)
  | .stG o => some (⟨0x61, 0x00, [], [.v, .s], [.v, .s, .i], [], 0x3FC03, tyMem, .agree, .always, .mem, .one, .two, .ty, .one⟩, o)
  | .stL o => some (⟨0x61, 0x01, [], [.v, .s], [.v, .s, .i], [], 0x3FC03, tyMem, .agree, .always, .mem, .one, .one, .ty, .one⟩, o)
  | .stR o => some (⟨0x61, 0x02, [], [.v, .s], [.v, .s, .i], [.v, .s], 0x3FC03, tyMem, .agree, .always, .mem, .one, .one, .ty, .one⟩, o)
  | .stRCnt o => some (⟨0x61, 0x02, [], [.v, .s], [.v, .s], [.v, .s], 0x3FC23, tyMem, .agree, .always, .mem, .one, .one, .ty, .one⟩, o)
  | .sts o => some (⟨0x61, 0x03, [], [.s], [.s, .i], [], 0x3FC1B, tyMem, .agree, .always, .mem, .one, .one, .one, .one⟩, o)
  | .atomG o => some (⟨0x62, 0x00, [.v], [.v, .s], [.v, .s, .i], [], 0x3FFC7, [.s32, .n32, .s64, .n64, .f32], .agree, .always, .mem, .ty, .two, .atom, .one⟩, o)
  | .atomL o => some (⟨0x62, 0x01, [.v], [.v, .s], [.v, .s, .i], [], 0x3FFC7, [.s32, .n32, .s64, .n64, .f32], .agree, .always, .mem, .ty, .one, .atom, .one⟩, o)
  | .atomR o => some (⟨0x62, 0x02, [.v], [.v, .s], [.v, .s, .i], [.v, .s], 0x3FFC7, [.s32, .n32, .s64, .n64, .f32], .agree, .always, .mem, .ty, .one, .atom, .one⟩, o)
  | .acq o => some (⟨0x63, 0x00, [], [], [], [], 0x00000, [], .zero, .none, .solo, .one, .one, .one, .one⟩, o)
  | .rel o => some (⟨0x63, 0x01, [], [], [], [], 0x00000, [], .zero, .none, .solo, .one, .one, .one, .one⟩, o)
  | .fence o => some (⟨0x63, 0x02, [], [], [], [], 0x00000, [], .zero, .none, .solo, .one, .one, .one, .one⟩, o)
  | .claim o => some (⟨0x63, 0x03, [], [.s], [.s, .i], [], 0x00000, [], .zero, .always, .solo, .one, .one, .one, .one⟩, o)
  | .volld o => some (⟨0x64, 0x00, [.v], [.s], [.v], [], 0x38000, [], .zero, .always, .m, .vol, .one, .three, .one⟩, o)
  | .volst o => some (⟨0x64, 0x01, [], [.s], [.v], [.v], 0x38000, [], .zero, .always, .m, .one, .one, .three, .vol⟩, o)
  | .volinv o => some (⟨0x64, 0x02, [.s], [.s], [.s, .i], [.s, .i], 0x00000, [], .zero, .opnd, .solo, .one, .one, .one, .one⟩, o)
  | .cart o => some (⟨0x65, 0x00, [], [.s], [.s, .i], [], 0x00000, [], .zero, .always, .m, .one, .one, .one, .one⟩, o)
  | .cartg o => some (⟨0x65, 0x01, [], [.s], [.s, .i], [], 0x00000, [], .zero, .always, .m, .one, .one, .one, .one⟩, o)
  | .twaitany o => some (⟨0x66, 0x00, [.s], [], [.s, .i], [], 0x00000, [], .zero, .opnd, .solo, .one, .one, .one, .one⟩, o)
  | .twaitall o => some (⟨0x66, 0x01, [], [], [.s, .i], [], 0x00000, [], .zero, .opnd, .solo, .one, .one, .one, .one⟩, o)
  | .tffs o => some (⟨0x66, 0x02, [.s], [], [.s, .i], [], 0x00000, [], .zero, .opnd, .solo, .one, .one, .one, .one⟩, o)
  | .waitc o => some (⟨0x66, 0x03, [], [], [], [], 0x00000, [], .zero, .always, .solo, .one, .one, .one, .one⟩, o)
  | .binit o => some (⟨0x67, 0x00, [], [.s], [.s, .i], [.s, .i], 0x00000, [], .zero, .always, .solo, .one, .one, .one, .one⟩, o)
  | .barr o => some (⟨0x67, 0x01, [.s], [.s], [.s, .i], [], 0x00000, [], .zero, .always, .solo, .one, .one, .one, .one⟩, o)
  | .barrRemote o => some (⟨0x67, 0x01, [.s], [.s], [.s, .i], [.s], 0x00000, [], .zero, .always, .solo, .one, .one, .one, .one⟩, o)
  | .bwait o => some (⟨0x67, 0x02, [], [.s], [.s, .i], [], 0x00000, [], .zero, .always, .solo, .one, .one, .one, .one⟩, o)
  | .btest o => some (⟨0x67, 0x03, [.s], [.s], [.s, .i], [], 0x00000, [], .zero, .always, .solo, .one, .one, .one, .one⟩, o)
  | .bale o => some (⟨0x80, 0x00, [], [.s], [.s, .i], [], 0x00000, [], .zero, .always, .m, .one, .one, .one, .one⟩, o)
  | .plz o => some (⟨0x80, 0x01, [], [.s], [.s, .i], [], 0x00000, [], .zero, .always, .m, .one, .one, .one, .one⟩, o)
  | .mloop o => some (⟨0x80, 0x02, [], [.s], [.s], [.s, .i], 0x3FFC0, [], .zero, .opnd, .m, .one, .one, .one, .one⟩, o)
  | .mfence o => some (⟨0x80, 0x03, [.s], [], [], [], 0x00000, [], .zero, .none, .solo, .one, .one, .one, .one⟩, o)
  | .mwait o => some (⟨0x80, 0x04, [], [], [.s, .i], [], 0x00000, [], .zero, .opnd, .solo, .one, .one, .one, .one⟩, o)
  | .mdrain o => some (⟨0x80, 0x05, [], [.s], [.s], [.s, .i], 0x3FFFB, [.s64, .s32, .s16, .s8, .n8, .s4], .agree, .always, .m, .one, .one, .one, .one⟩, o)
  | .mclr o => some (⟨0x80, 0x06, [], [], [], [], 0x000D0, [], .zero, .none, .m, .one, .one, .one, .one⟩, o)
  | .actld o => some (⟨0x80, 0x07, [], [.s], [.s, .i], [], 0x00000, [], .zero, .always, .m, .one, .one, .one, .one⟩, o)
  | .scacc o => some (⟨0x81, 0x00, [.v], [.v], [.v, .s], [], 0x3F800, [.f32], .agree, .none, .v, .one, .two, .one, .one⟩, o)
  | .draw o => some (⟨0x90, 0x00, [.v], [.v], [.v, .s, .i], [], 0x3E000, [.n32, .f32], .zero, .opnd, .v, .one, .one, .one, .one⟩, o)
  | .rsupd o => some (⟨0x90, 0x01, [.v], [.v], [.v, .s], [.v], 0x00004, [], .zero, .none, .v, .eight, .four, .one, .one⟩, o)
  | .rsmrg o => some (⟨0x90, 0x02, [.v], [.v], [.v], [.v], 0x00004, [], .zero, .none, .v, .eight, .eight, .two, .one⟩, o)
  | .rsnrm o => some (⟨0x90, 0x03, [.v], [], [], [.v], 0x00004, [], .zero, .none, .v, .eight, .one, .one, .one⟩, o)
  | .rsld o => some (⟨0x90, 0x04, [.v], [.v, .s], [], [], 0x00000, [], .zero, .none, .m, .eight, .two, .one, .one⟩, o)
  | .rsst o => some (⟨0x90, 0x05, [], [.v, .s], [.v], [], 0x00000, [], .zero, .none, .m, .one, .two, .eight, .one⟩, o)
  | .rayq o => some (⟨0x90, 0x06, [.v], [.v], [.s], [], 0x00000, [], .zero, .none, .m, .four, .eight, .one, .one⟩, o)
  | .rayv o => some (⟨0x90, 0x07, [.v], [.v], [.s], [], 0x00000, [], .zero, .none, .m, .one, .eight, .one, .one⟩, o)
  | .ltree o => some (⟨0x90, 0x08, [.v], [.v], [.s], [], 0x00000, [], .zero, .none, .m, .two, .two, .one, .one⟩, o)
  | .tcall o => some (⟨0x90, 0x09, [.v], [.v], [.s], [], 0x00000, [], .zero, .none, .solo, .one, .eight, .one, .one⟩, o)
  | .tret o => some (⟨0x90, 0x0A, [], [], [], [], 0x00000, [], .zero, .none, .solo, .one, .one, .one, .one⟩, o)
  | .groom o => some (⟨0x90, 0x0B, [], [.s], [.s, .i], [], 0x00000, [], .zero, .always, .m, .one, .one, .one, .one⟩, o)
  | .launch o => some (⟨0xA0, 0x00, [.s], [.s], [.s, .i], [], 0x00000, [], .zero, .opnd, .solo, .one, .one, .one, .one⟩, o)
  | .gbar o => some (⟨0xA0, 0x01, [], [], [], [], 0x00000, [], .zero, .none, .solo, .one, .one, .one, .one⟩, o)
  | .stint o => some (⟨0xA0, 0x02, [], [], [], [], 0x00000, [], .zero, .none, .solo, .one, .one, .one, .one⟩, o)
  | .exit o => some (⟨0xA0, 0x03, [], [], [], [], 0x00000, [], .zero, .none, .solo, .one, .one, .one, .one⟩, o)
  | .fetchw o => some (⟨0xA0, 0x04, [], [.s], [], [], 0x00000, [], .zero, .always, .solo, .one, .one, .one, .one⟩, o)
  | .spawn o => some (⟨0xA1, 0x00, [], [.v], [.i], [], 0x00000, [], .zero, .always, .solo, .one, .two, .one, .one⟩, o)
  | .spawnIndirect o => some (⟨0xA1, 0x00, [], [.v], [.s], [], 0x00000, [], .zero, .none, .solo, .one, .two, .one, .one⟩, o)
  | .lrefill o => some (⟨0xA1, 0x01, [], [], [], [], 0x00000, [], .zero, .none, .solo, .one, .one, .one, .one⟩, o)
  | .task o => some (⟨0xA2, 0x00, [], [.s], [.s], [], 0x00000, [], .zero, .always, .solo, .one, .one, .one, .one⟩, o)
  | .taskRun o => some (⟨0xA2, 0x00, [], [.s], [.s], [], 0x00004, [], .zero, .always, .solo, .one, .one, .one, .one⟩, o)
  | .fwait o => some (⟨0xA2, 0x01, [.s], [.s], [], [], 0x00000, [], .zero, .none, .solo, .one, .one, .one, .one⟩, o)
  | .fset o => some (⟨0xA2, 0x02, [], [], [.s, .i], [], 0x00000, [], .zero, .opnd, .solo, .one, .one, .one, .one⟩, o)
  | .lock o => some (⟨0xA2, 0x03, [], [.s], [], [], 0x00000, [], .zero, .always, .solo, .one, .one, .one, .one⟩, o)
  | .unlock o => some (⟨0xA2, 0x04, [], [.s], [], [], 0x00000, [], .zero, .always, .solo, .one, .one, .one, .one⟩, o)
  | .enq o => some (⟨0xA2, 0x05, [], [.s], [.s, .i], [], 0x00000, [], .zero, .always, .solo, .one, .one, .one, .one⟩, o)
  | .deq o => some (⟨0xA2, 0x06, [.s], [.s], [], [], 0x00000, [], .zero, .always, .solo, .one, .one, .one, .one⟩, o)
  | .qwait o => some (⟨0xA2, 0x07, [.s], [.s], [], [], 0x00000, [], .zero, .always, .solo, .one, .one, .one, .one⟩, o)
  | .ybar o => some (⟨0xA3, 0x00, [.s], [.s], [], [], 0x00000, [], .zero, .always, .solo, .one, .one, .one, .one⟩, o)
  | .ywait o => some (⟨0xA3, 0x01, [], [], [.s, .i], [], 0x00000, [], .zero, .opnd, .solo, .one, .one, .one, .one⟩, o)
  | .tlbinv o => some (⟨0xA4, 0x00, [.s], [.s], [.s, .i], [], 0x00000, [], .zero, .opnd, .solo, .one, .one, .one, .one⟩, o)
  | .tlbinvAll o => some (⟨0xA4, 0x00, [.s], [], [], [], 0x00004, [], .zero, .none, .solo, .one, .one, .one, .one⟩, o)
  | .probeResult _ => none
  | .probeLinkLimit _ => none
  | .sectionAccept _ => none
  | .stagingCheck _ => none
  | .creditCommit _ => none
  | .remoteAccessArrive _ => none
  | .remoteReply _ => none
  | .loadComplete _ _ => none
  | .storeAck _ _ => none
  | .homeRegistration _ _ => none
  | .l1WordExpiry _ _ => none
  | .lineFetch _ => none
  | .claimRehomeDone _ => none
  | .shootdownAck _ => none
  | .cartStart _ _ => none
  | .cartComplete _ _ => none
  | .cartgComplete _ _ => none
  | .baleComplete _ _ => none
  | .mloopComplete _ => none
  | .mdrainComplete _ => none
  | .mclrRun _ => none
  | .rayQueryComplete _ _ => none
  | .rayVisitLimit _ _ => none
  | .ltreeStepLimit _ _ => none
  | .callableRunStart _ => none
  | .callableIssueLimit _ => none
  | .groomStart _ => none
  | .groomComplete _ _ => none
  | .gbarComplete _ => none
  | .yardRoundRelease _ => none
  | .lqappend _ _ _ => none
  | .distributorTakeBlock _ => none
  | .gangPlacement => none
  | .starvationLimit _ => none
  | .fetchwServe => none
  | .gangRetire _ _ => none
  | .issueAgeRotate _ => none
  | .packingMove _ => none
  | .spillMove _ => none
  | .binTimeout _ _ => none
  | .binGroupStart _ => none
  | .taskRunStart _ => none
  | .groupPark _ => none
  | .groupWake _ => none
  | .gangReplacement _ => none
  | .stallErrorLoss _ => none
  | .stallCheckMiss _ => none
  | .stableCheckMiss _ => none
  | .stallHosting _ => none
  | .gangRestore _ => none
  | .barnLoss _ => none
  | .barnMoveComplete _ => none
  | .dieLinkFailure _ _ => none
  | .eccCorrected _ _ => none
  | .eccUncorrectable _ => none
  | .panelLinkFailure _ => none
  | .panelLinkInbound _ _ => none
  | .timeFirstSync _ _ _ => none
  | .loffAdjust _ => none
  | .powerOn => none
  | .panelrst _ => none
  | .portReset _ => none
  | .portLinkDownTimeout _ => none
  | .ownctlClaim _ => none
  | .ownctlHandoverOffer _ _ => none
  | .ownctlOfferWithdraw _ => none
  | .ownctlAccept _ => none
  | .ownctlRelease _ => none
  | .ldrctlGo _ => none
  | .loaderVerifyDone => none
  | .attctlReq _ => none
  | .attestationReportDone => none
  | .tlbshoot _ _ => none
  | .tlbshootAck => none
  | .tmapsync _ => none
  | .tmapsyncDone => none
  | .memcfgWrite _ _ => none
  | .preemptGo _ _ _ => none
  | .preemptLift _ _ => none
  | .tfdoneRetry _ _ => none
  | .tfdoneDeny _ _ => none
  | .tfdoneEnd _ _ => none
  | .evptrHeadWrite _ _ => none
  | .loftWrite _ _ _ => none
  | .hostBar2Write _ _ _ => none
  | .hostBar2Read _ _ _ => none
  | .dbgctlAttach _ => none
  | .dbgctlHaltRequest _ => none
  | .dbgctlStep _ => none
  | .dbgctlRun _ => none
  | .dbgctlDetach _ => none
  | .ceCounterClear _ _ _ => none
  | .registerWrite _ _ _ => none
  | .portLinkDown _ => none
  | .portLinkUp _ => none
  | .panelLinkTrained _ _ => none
  | .zeroLengthReadCompletion _ => none
  | .panelTimeTick => none
  | .stallCycle _ _ => none

/-- The reasons for which the bits of a live slot are no instruction (R264). -/
inductive DecodeError where
  /-- a major code that R263 leaves out -/
  | major
  /-- a minor code that its major's row leaves out -/
  | minor
  /-- an operand of a kind the row does not give, a nonzero unused field, a nonzero number under kind 10 (R258) -/
  | operand
  /-- a nonzero unused IMM, or an IMM outside the range its row gives -/
  | immediate
  /-- a modifier bit the row does not name, or a field value it does not accept -/
  | modifier
  /-- a reserved TYPE, a TYPE the row does not accept, or a WID that disagrees with it (R262) -/
  | type
  /-- a vector number or group that no VBUDGET allows (R74, R320, R354), or a destination that R375 refuses -/
  | register
  deriving DecidableEq, Repr

/-- An operand field holds a kind of the row's list; with an empty list the field is zero (R258, R264). -/
def Opnd.fits (o : Opnd) (ks : List Kind) : Bool :=
  if ks.isEmpty then o = .zero
  else ks.contains o.kind && (o.kind != .i || o.num = 0)

/-- The registers a vector operand names, and the base alignment they need: under a 64-bit TYPE the vector source of CVT is even
whatever its own type (R289). -/
def RegGroup.span (g : RegGroup) (o : Slot) : Nat × Nat :=
  match g with
  | .one => (1, 1)
  | .ty => if o.ty.bits = 64 then (2, 2) else (1, 1)
  | .srcTy => if o.srcTy.bits = 64 then (2, 2) else if o.ty.bits = 64 then (1, 2) else (1, 1)
  | .lane => if o.wid = 3 then (2, 2) else (1, 1)
  | .two => (2, 2)
  | .three => (3, 1)
  | .four => (4, 4)
  | .eight => (8, 8)
  | .vol => if o.vsz = 4 then (4, 4) else if o.vsz = 3 then (2, 2) else (1, 1)
  | .atom =>
    if o.aop = 7 then (if o.ty.bits = 64 then (4, 4) else (2, 1))
    else if o.ty.bits = 64 then (2, 2) else (1, 1)
  | .matchD => if o.ty.bits = 64 then (1, 2) else (1, 1)

/-- A vector operand lies below the budget at its group's alignment (R74). -/
def Opnd.groupFits (o : Opnd) (ks : List Kind) (g : RegGroup) (sl : Slot) (budget : Nat) : Bool :=
  match ks, o with
  | [], _ => true
  | _, .v n => n.toNat % (g.span sl).2 = 0 && n.toNat + (g.span sl).1 ≤ budget
  | _, _ => true

/-- The vector operands of an instruction under a register budget (R74, R320, R354). -/
def Form.regsOk (f : Form) (o : Slot) (budget : Nat) : Bool :=
  o.dst.groupFits f.dst f.gd o budget && o.a.groupFits f.a f.ga o budget &&
  o.b.groupFits f.b f.gb o budget && o.c.groupFits f.c f.gc o budget

/-- The kinds a DST field takes: none under NORET (R317). -/
def Form.dstKinds (f : Form) (o : Slot) : List Kind := if f.major = 0x62 ∧ o.bit34 then [] else f.dst

/-- The kinds an OPC field takes: none without FLG in RSUPD, RSMRG and RSNRM (R352, R353). -/
def Form.cKinds (f : Form) (o : Slot) : List Kind :=
  if f.major = 0x90 ∧ 1 ≤ f.minor ∧ f.minor ≤ 3 ∧ !o.bit34 then [] else f.c

/-- The kinds of the four operand fields. -/
def Form.kindsOk (f : Form) (o : Slot) : Bool :=
  o.dst.fits (f.dstKinds o) && o.a.fits f.a && o.b.fits f.b && o.c.fits (f.cKinds o)

/-- An unused IMM is zero (R258). -/
def Form.immOk (f : Form) (o : Slot) : Bool :=
  match f.imm with
  | .none => o.imm = 0
  | .opnd => o.immTaken || o.imm = 0
  | .always => true

/-- No modifier bit outside the row's columns is set (R258). -/
def Form.modOk (f : Form) (o : Slot) : Bool := o.mod &&& ~~~f.modMask = 0

/-- TYPE is of the accepted list (R262). -/
def Form.typeOk (f : Form) (o : Slot) : Bool :=
  f.types.isEmpty || (match o.ty? with | some t => f.types.contains t | none => false)

/-- WID agrees with TYPE where the row says so (R262, R303). -/
def Form.widOk (f : Form) (o : Slot) : Bool :=
  match f.wid with
  | .zero => true
  | .agree => f.types.isEmpty || o.wid = o.ty.wid
  | .lane => o.wid = 0 || o.wid = 3

/-- CVT: SEL names an element of the lane and Ts is not reserved (R300). -/
def cvtOk (o : Slot) : Bool :=
  match o.srcTy? with
  | none => false
  | some t => o.sel < (if t.bits ≤ 32 then 32 / t.bits else 1) && o.imm.toNat < 512

/-- CVTD: the width of Ts is twice that of Td and at most 32 (R301). -/
def cvtdOk (o : Slot) : Bool :=
  match o.srcTy? with
  | none => false
  | some t => t.bits = 2 * o.ty.bits && t.bits ≤ 32 && o.imm.toNat < 32

/-- The types an atomic operation accepts, and CAS's vector operand (R316). -/
def aopOk (o : Slot) : Bool :=
  if o.aop ≤ 5 then o.ty != .f32
  else if o.aop = 6 then true
  else if o.aop = 7 then o.b.kind = .v
  else o.aop = 8 && o.ty = .f32

/-- The two-register destinations of R375. -/
def pairDstOk (o : Slot) : Bool := o.dst.num % 2 = 0 && 2 ≤ o.dst.num

/-- The immediate ranges that a row gives beyond the common checks: LEA's k, CVT's and CVTD's Ts and SEL. -/
def Instr.immRangeOk : Instr → Bool
  | .lea o => o.imm.toNat ≤ 63
  | .cvt o => cvtOk o
  | .cvtd o => cvtdOk o
  | _ => true

/-- The modifier values that an instruction refuses beyond the common checks: COND UN and ORD with an integer type
(R260), ORD, AOP and SPACE (R310, R316), VSZ (R310), the planes of a baled O4 operand (R335), and the bits that make
two mnemonics of one opcode (CNT, RUN, ALL). -/
def Instr.modRangeOk : Instr → Bool
  | .cmp o => o.cond ≤ 5
  | .brc o => o.cond ≤ 5
  | .vcmp o => o.cond ≤ 5
  | .ldG o => o.ord = 0 || o.ord = 2
  | .ldL o => o.ord = 0 || o.ord = 2
  | .ldF o => o.ord = 0 || o.ord = 2
  | .ldR o => o.ord = 0 || o.ord = 2
  | .lds o => (o.ord = 0 || o.ord = 2) && o.space != 3
  | .ldline o => o.ord = 0 || o.ord = 2
  | .stG o => o.ord = 0 || o.ord = 3
  | .stL o => o.ord = 0 || o.ord = 3
  | .stR o => o.ord = 0 || o.ord = 3
  | .stRCnt o => (o.ord = 0 || o.ord = 3) && o.cnt
  | .sts o => (o.ord = 0 || o.ord = 3) && o.space ≤ 1
  | .atomG o => 1 ≤ o.ord && o.ord ≤ 4 && aopOk o
  | .atomL o => 1 ≤ o.ord && o.ord ≤ 4 && aopOk o
  | .atomR o => 1 ≤ o.ord && o.ord ≤ 4 && aopOk o
  | .volld o => o.vsz ≤ 4
  | .volst o => o.vsz ≤ 4
  | .mloop o => (!o.ao4 || o.pam = 7) && (!o.bo4 || o.pbm = 7)
  | .taskRun o => o.bit34
  | .tlbinvAll o => o.bit34
  | _ => true

/-- The destination rule of FWAIT, DEQ and QWAIT (R375). -/
def Instr.dstOk : Instr → Bool
  | .fwait o => pairDstOk o
  | .deq o => pairDstOk o
  | .qwait o => pairDstOk o
  | _ => true

/-- The first check of R264 that an instruction's bits fail, none when they are an instruction. -/
def Instr.defect (i : Instr) : Option DecodeError :=
  match i.encoded with
  | none => none
  | some (f, o) =>
    if !f.kindsOk o then some .operand
    else if !(f.immOk o && i.immRangeOk) then some .immediate
    else if !(f.modOk o && i.modRangeOk) then some .modifier
    else if !(f.typeOk o && f.widOk o) then some .type
    else if !(f.regsOk o 64 && i.dstOk) then some .register
    else none

end Sys2Proof
end

