-- ==== Sys2Proof/WellFormed.lean ====
section
/-!
DEFINITION. Well-formed instructions: those whose bits pass every check of R264 that needs no state. The checks
themselves are the named functions of Machine/Forms.lean; the register budget (R74) and the special-register index
(R77) are checked at issue.
-/

namespace Sys2Proof

/-- No check of the instruction's bits fails (R264). The panel's events have no bits. -/
def Instr.WellFormed (i : Instr) : Prop := i.defect = none

/-- An instruction of the opcode map, not an event. -/
def Instr.isEncoded (i : Instr) : Bool := i.encoded.isSome

end Sys2Proof
end

