-- ==== Sys2Proof/Decode.lean ====
section
/-!
DEFINITION. Decoding: a 96-bit slot to an instruction or a named reason (R255, R263, R264), the encoder, the fetch line
and its line word (R249, R252), and the byte order of a slot.
-/

namespace Sys2Proof

/-- The operand field of R256: kind in [7:6], number in [5:0]. -/
def Opnd.ofBits (b : BitVec 8) : Opnd :=
  let n := b.extractLsb' 0 6
  match (b.extractLsb' 6 2).toNat with
  | 0 => .v n
  | 1 => .s n
  | 2 => .imm n
  | _ => .x n

/-- The eight bits of an operand field (R256). -/
def Opnd.toBits : Opnd → BitVec 8
  | .v n => (0#2 ++ n).cast (by rfl)
  | .s n => (1#2 ++ n).cast (by rfl)
  | .imm n => (2#2 ++ n).cast (by rfl)
  | .x n => (3#2 ++ n).cast (by rfl)

/-- The fields of a slot below its opcode (R255). -/
def Slot.ofBits (w : BitVec 96) : Slot where
  dst := .ofBits (w.extractLsb' 74 8)
  a := .ofBits (w.extractLsb' 66 8)
  b := .ofBits (w.extractLsb' 58 8)
  c := .ofBits (w.extractLsb' 50 8)
  mod := w.extractLsb' 32 18
  imm := w.extractLsb' 0 32

/-- The opcode map (R263): the constructors of a major code in ascending minor code. An opcode with two mnemonics is
listed under its first. -/
def majorRow : Nat → List (Slot → Instr)
  | 0x00 => [.nop, .brk]
  | 0x01 => [.add, .sub, .mul, .mulh, .mulhn, .div, .divn, .rem, .remn, .min, .max, .minn, .maxn, .and, .or, .xor, .andn, .shl, .shr, .sar, .rol, .ror, .clz, .ctz, .popc, .brev, .bfx, .bfxs, .bfi, .sel, .cmp, .lea]
  | 0x02 => [.movi, .mov, .srd, .swr]
  | 0x03 => [.mblk, .part, .serb, .sere]
  | 0x04 => [.br, .brc, .jmp, .call, .calli, .ret]
  | 0x05 => [.trap, .eret, .gtime, .ltime, .ifence, .svc]
  | 0x20 => [.fadd, .fsub, .fmul, .fma, .fmin, .fmax, .fcmp, .fclass, .frint]
  | 0x21 => [.frcp, .frsq, .fsqrt, .fexp2, .flog2, .fsinp, .fcosp]
  | 0x22 => [.hadd2, .hmul2, .hfma2, .hmin2, .hmax2, .hcmp2]
  | 0x23 => [.vadd, .vsub, .vmul, .vmulh, .vmad, .vmin, .vmax, .vand, .vor, .vxor, .vshl, .vshr, .vsar, .vcmp, .vsel, .vadds]
  | 0x24 => [.vclz, .vctz, .vffs, .vpopc, .vbrev, .vbfx, .vbfi]
  | 0x25 => [.cvt, .cvtd, .vscale]
  | 0x26 => [.shfl, .shflx, .shflup, .shfldn, .gshf, .vbcast, .vlane, .vidx]
  | 0x27 => [.voteany, .voteall, .ballot, .redadd, .redfadd, .redmin, .redmax, .scanadd, .scanfadd, .matchLanes]
  | 0x60 => [.ldG, .ldL, .ldF, .ldR, .lds, .ldline]
  | 0x61 => [.stG, .stL, .stR, .sts]
  | 0x62 => [.atomG, .atomL, .atomR]
  | 0x63 => [.acq, .rel, .fence, .claim]
  | 0x64 => [.volld, .volst, .volinv]
  | 0x65 => [.cart, .cartg]
  | 0x66 => [.twaitany, .twaitall, .tffs, .waitc]
  | 0x67 => [.binit, .barr, .bwait, .btest]
  | 0x80 => [.bale, .plz, .mloop, .mfence, .mwait, .mdrain, .mclr, .actld]
  | 0x81 => [.scacc]
  | 0x90 => [.draw, .rsupd, .rsmrg, .rsnrm, .rsld, .rsst, .rayq, .rayv, .ltree, .tcall, .tret, .groom]
  | 0xA0 => [.launch, .gbar, .stint, .exit, .fetchw]
  | 0xA1 => [.spawn, .lrefill]
  | 0xA2 => [.task, .fwait, .fset, .lock, .unlock, .enq, .deq, .qwait]
  | 0xA3 => [.ybar, .ywait]
  | 0xA4 => [.tlbinv]
  | _ => []

/-- The second mnemonic of an opcode: ST.R with CNT, BARR on another stall, SPAWN with a scalar PC, TASK with RUN and
TLBINV with ALL (R311, R374). -/
def splitMnemonic : Instr → Instr
  | .stR o => if o.cnt then .stRCnt o else .stR o
  | .barr o => if o.c = .zero then .barr o else .barrRemote o
  | .spawn o => if o.b.kind = .s then .spawnIndirect o else .spawn o
  | .task o => if o.bit34 then .taskRun o else .task o
  | .tlbinv o => if o.bit34 then .tlbinvAll o else .tlbinv o
  | i => i

/-- The instruction that a slot's opcode and fields name, whether or not its other bits pass R264; none for an opcode that
R263 leaves out. -/
def namedInstr (w : BitVec 96) : Option Instr :=
  (majorRow (w.extractLsb' 88 8).toNat)[(w.extractLsb' 82 6).toNat]?.map fun mk => splitMnemonic (mk (Slot.ofBits w))

/-- The instruction that a live slot holds, or why it holds none (R264). -/
def decodeSlot (w : BitVec 96) : Except DecodeError Instr :=
  match majorRow (w.extractLsb' 88 8).toNat with
  | [] => .error .major
  | row =>
    match row[(w.extractLsb' 82 6).toNat]? with
    | none => .error .minor
    | some mk =>
      let i := splitMnemonic (mk (Slot.ofBits w))
      match i.defect with
      | some e => .error e
      | none => .ok i

/-- The bits of an encoded instruction (R255); the panel's events have none. -/
def encode (i : Instr) : Option (BitVec 96) :=
  i.encoded.map fun p =>
    let f := p.1
    let o := p.2
    BitVec.ofNat 8 f.major ++ BitVec.ofNat 6 f.minor ++ o.dst.toBits ++ o.a.toBits ++ o.b.toBits ++ o.c.toBits ++
      o.mod ++ o.imm

/-- The twelve bytes of a slot, least significant first (R2, R249). -/
def slotBytes (w : BitVec 96) : List Byte := (List.range 12).map fun k => w.extractLsb' (8 * k) 8

/-- The little-endian value of a list of bytes (R2). -/
def leValue : List Byte → Nat
  | [] => 0
  | b :: bs => b.toNat + 256 * leValue bs

/-- Decoding twelve bytes of a fetch line; any other number of bytes holds no slot. -/
def decodeBytes (bs : List Byte) : Except DecodeError Instr :=
  if bs.length = 12 then decodeSlot (BitVec.ofNat 96 (leValue bs)) else .error .major

/-- The instruction read from bits numbered as the opcode table numbers them: the slot stored as the hardware stores
it, its unstated high bits zero, and decoded. -/
def decodeTableWord (nbits w : Nat) : Option Instr :=
  match decodeBytes (slotBytes (BitVec.ofNat 96 (w % 2 ^ nbits))) with
  | .ok i => some i
  | .error _ => none

/-! The fetch line (R249): 64 bytes held as one number, bit i of the line being bit i of the number. -/

/-- Slot k of a line: bits [96k+95 : 96k]. -/
def lineSlot (line : Nat) (k : Nat) : BitVec 96 := BitVec.ofNat 96 (line >>> (96 * k))

/-- The line word: bits [511:480]. -/
def lineWord (line : Nat) : BitVec 32 := BitVec.ofNat 32 (line >>> 480)

/-- LIVE, the number of live slots. -/
def lineLive (line : Nat) : Nat := ((lineWord line).extractLsb' 12 3).toNat

/-- PAIR bit k: slots k and k+1 form a pair. -/
def linePair (line : Nat) (k : Nat) : Bool := k < 4 && (lineWord line).getLsbD (15 + k)

/-- TGT bit k: slot k is a legal branch target. -/
def lineTgt (line : Nat) (k : Nat) : Bool := k < 5 && (lineWord line).getLsbD (19 + k)

/-- The XOR of the bits of the first n bits of a number. -/
def parityOf (n : Nat) (x : Nat) : Bool :=
  (List.range n).foldl (fun p i => p != x.testBit i) false

/-- The eight even-parity bits of the slot area. -/
def lineParity (line : Nat) : BitVec 8 :=
  (List.range 8).foldl (fun p i => if parityOf 60 (line >>> (60 * i)) then p ||| (1#8 <<< i) else p) 0

/-- Check 2 of R252. -/
def lineParityOk (line : Nat) : Bool := (lineWord line).extractLsb' 24 8 = lineParity line

/-- Check 3 of R252: the line word. -/
def lineWordOk (line : Nat) : Bool :=
  let live := lineLive line
  (lineWord line).extractLsb' 0 12 = 0 && 1 ≤ live && live ≤ 5 &&
  (List.range 4).all (fun k => !linePair line k || k + 1 < live) &&
  (List.range 3).all (fun k => !(linePair line k && linePair line (k + 1))) &&
  (List.range 5).all (fun k => k < live || (!lineTgt line k && lineSlot line k = 0))

/-- A line of one to five slots with the given pair and target marks and its parity (R249). -/
def encodeLine (slots : List (BitVec 96)) (pair : BitVec 4) (tgt : BitVec 5) : Nat :=
  let area := (slots.foldr (fun w acc => w.toNat + acc * 2 ^ 96) 0) % 2 ^ 480
  let word := slots.length % 8 * 2 ^ 12 + pair.toNat * 2 ^ 15 + tgt.toNat * 2 ^ 19 + (lineParity area).toNat * 2 ^ 24
  area + word * 2 ^ 480

/-- The 64 bytes of a line (R2, R249). -/
def lineBytes (line : Nat) : List Byte := (List.range 64).map fun k => BitVec.ofNat 8 (line >>> (8 * k))

/-- The line that 64 bytes hold. -/
def lineOfBytes (bs : List Byte) : Nat := leValue bs

end Sys2Proof
end

