-- ==== Sys2Proof/Machine/KMap.lean ====
section
/-!
DEFINITION. Sparse maps in one canonical form: keys strictly rising, and no entry equal to what an unlisted key reads
as. Memories, register files and the tables of stalls, gangs and groups are held in them, so that equal contents are
equal data.
-/

namespace Sys2Proof

/-- A sparse map from numbers. -/
abbrev KMap (V : Type) := List (Nat × V)

/-- The value at a key, the default where none is listed. -/
def kget {V : Type} (d : V) : KMap V → Nat → V
  | [], _ => d
  | (k, v) :: m, a => if k = a then v else if a < k then d else kget d m a

/-- Take a key out of a map. -/
def kerase {V : Type} : KMap V → Nat → KMap V
  | [], _ => []
  | (k, v) :: m, a => if k = a then m else if a < k then (k, v) :: m else (k, v) :: kerase m a

/-- List a value at a key. -/
def kinsert {V : Type} : KMap V → Nat → V → KMap V
  | [], a, x => [(a, x)]
  | (k, v) :: m, a, x =>
    if k = a then (k, x) :: m else if a < k then (a, x) :: (k, v) :: m else (k, v) :: kinsert m a x

/-- Set the value at a key, keeping the canonical form. -/
def kset {V : Type} [DecidableEq V] (d : V) (m : KMap V) (a : Nat) (x : V) : KMap V :=
  if x = d then kerase m a else kinsert m a x

/-- Every key of the map lies above a bound and the keys rise strictly; no value is the default. -/
def kwfFrom {V : Type} [DecidableEq V] (d : V) : Nat → KMap V → Bool
  | _, [] => true
  | lo, (k, v) :: m => lo ≤ k && v != d && kwfFrom d (k + 1) m

/-- The canonical form. -/
def kwf {V : Type} [DecidableEq V] (d : V) (m : KMap V) : Bool := kwfFrom d 0 m

/-- The keys listed. -/
def kkeys {V : Type} (m : KMap V) : List Nat := m.map Prod.fst

/-- Look a key up in an association list whose values have no default. -/
def kfind {V : Type} : KMap V → Nat → Option V
  | [], _ => none
  | (k, v) :: m, a => if k = a then some v else kfind m a

/-- The bytes of a memory held as a canonical list of cells; an unlisted byte reads zero (R109). -/
abbrev Memory := List Host.Cell

/-- Read one byte. -/
def Memory.read (m : Memory) (a : Nat) : Byte := kget 0 m a
/-- Write one byte. -/
def Memory.write (m : Memory) (a : Nat) (b : Byte) : Memory := kset 0 m a b
/-- The canonical form of a memory. -/
def Memory.wf (m : Memory) : Bool := kwf 0 m

/-- The n bytes at an address, lowest address first. -/
def Memory.readN (m : Memory) (a n : Nat) : List Byte := (List.range n).map fun i => m.read (a + i)

/-- Write bytes at consecutive addresses. -/
def Memory.writeN : Memory → Nat → List Byte → Memory
  | m, _, [] => m
  | m, a, b :: bs => Memory.writeN (m.write a b) (a + 1) bs

end Sys2Proof
end

