-- ==== Sys2Proof/Machine/State.lean ====
section
/-!
DEFINITION. The state of the panel as plain data: the panel's own registers and tables, its stables, barns, stalls,
gangs and groups, their memories, queues, records and logs, and the three fields of the model's own (agenda, cur, free).
A map by key lists only what differs from its default, which is the value after reset.
-/

namespace Sys2Proof.Machine

/-- Why the machine stops with a fault. -/
inductive Fault where
  /-- raised by the meaning of an encoded instruction when no group stands at `cur`: safe, since step issues only for
  listed groups. An instruction that cannot take effect takes its trap instead (R212) -/
  | noGroup
  deriving DecidableEq, Repr

/-- Why a step is refused. -/
inductive Refusal where
  /-- an instruction that has no meaning yet: safe -/
  | notModelled (mnemonic : String)
  /-- raised by step alone, at the firmware's supervisor handler for a cause other than MISALIGNED: the services of SVC
  are the firmware's and the spec does not give them (R216, R282): safe -/
  | firmwareService
  deriving DecidableEq, Repr

/-- The causes of R212. -/
inductive Cause where
  | illegalLine | fetchParity | illegalOp | badTarget | privilege | scrBounds | translation | permission | rangeLocked
  | misaligned | poison | volPoolEmpty | volRange | cvtOverflow | barrierCount | deadlock | replayDiverge | divide
  | trapInsn | debug
  deriving DecidableEq, Repr

/-! ### Registers of a group -/

/-- The registers that a park record or an adoption frame saves as full state (R85): scalar (R73) and vector (R74)
registers, the special registers that belong to the group (R78), the supervisor registers (R82), mode (R83), serial
flag (R279) and PC. Scalar registers are listed by number, never 0; lane l of vN is listed under 32 N + l. -/
structure Regs where
  pc : Word
  sup : Bool
  serial : Bool
  s : KMap Word
  v : KMap Lane
  exm : BitVec 32
  lpart : BitVec 3
  flmask : BitVec 32
  tcause : BitVec 8
  taddr : Word
  tpc : Word
  launchId : BitVec 32
  taskId : Word
  depth : BitVec 3
  await : Word
  rngKey0 : BitVec 32
  rngKey1 : BitVec 32
  mcap : BitVec 32
  batchOpen : BitVec 16
  batchDone : BitVec 16
  psn : Bool
  ovf : Bool
  balepa : Word
  stintno : BitVec 32
  yctx : BitVec 2
  tvec : Word
  epc : Word
  estat : BitVec 11
  sscr0 : Word
  sscr1 : Word
  /-- TPC of the latest trap entry, which a boundary does not zero (R251) -/
  trapAt : Option Word
  deriving DecidableEq, Repr

/-- A register as an operand of the interlock and pair rules (R75, R253): special registers by the index of R77. -/
inductive RegName where
  | s (n : Nat)
  | v (n : Nat)
  | x (n : Nat)
  deriving DecidableEq, Repr

/-- A register write that an operation makes after issue or that a log holds. -/
inductive RegWrite where
  | s (n : Nat) (value : Word)
  | v (n : Nat) (lane : Nat) (value : Lane)
  deriving DecidableEq, Repr

/-! ### Accesses on their way -/

/-- The atomic operations (R316). -/
inductive AOp where
  | add | min | max | and | or | xor | swap | cas | fadd
  deriving DecidableEq, Repr

/-- One lane's checked access: its location (a global location, a scratchpad offset of a stall, a loft offset), its
virtual address, its width in bytes, and a store's or atomic's operands. -/
structure Acc where
  lane : Nat
  va : Word
  loc : Nat
  bytes : Nat
  uncached : Bool
  value : Word
  compare : Word
  deriving DecidableEq, Repr

/-- What an operation with outstanding registers or acknowledgement does when it is performed. -/
inductive OpKind where
  /-- plain load of global memory -/
  | load
  /-- a load or lane read whose value was taken when it was performed at issue -/
  | taken
  /-- relaxed atomic of global memory, or an atomic already performed -/
  | atomic (op : AOp)
  /-- stores of global memory: the bytes whose words wait for registration, and those of uncached pages that wait to
  be written at their home -/
  | store (pending direct : Memory)
  /-- deliveries of a remote store (R45) awaiting the staging area's acknowledgement -/
  | remoteStore
  /-- LD.R or ATOM.R on its way (R93): the target stall of each access, in order; the atomic's operation if any -/
  | remote (targets : List Nat) (op : Option AOp)
  /-- BARR on an object of another stall on its way (R329): the count it checks -/
  | arrive (stall : Nat) (count : BitVec 32)
  /-- CLAIM of n pages from an address on its way (R100, R319) -/
  | claim (va : Word) (pages : Nat)
  /-- VOLINV (R322): the descriptor address and the stalls -/
  | volinv (desc : Word) (first n : Nat)
  /-- TLBINV (R395): every entry, or the pages from an address -/
  | tlbinv (all : Bool) (va : Word) (pages : Nat)
  /-- TCALL's run, requested and not ended (R368) -/
  | call
  /-- performed where it was sent, its reply on the way -/
  | answered
  /-- its reply has returned -/
  | replied
  /-- its check failed where it was sent, and the reply that says so is on the way or has returned -/
  | refused (cause : Cause) (lanes : BitVec 32) (addr : Word) (returned : Bool)
  /-- ray query, visibility query or light-tree walk (R363 to R366): the scene address and the lanes' inputs -/
  | ray (visibility : Bool) (scene : Word) (inputs : List (Nat × List Lane))
  | ltree (header : Word) (inputs : List (Nat × List Lane))
  deriving DecidableEq, Repr

/-- An operation counted in LD or ST, or in neither (R187): its type, the registers it has still to write, its accesses, the
values that those of its accesses performed so far have read, by position, and its register writes once it has been performed. -/
structure Op where
  kind : OpKind
  ty : ETy
  counted : Bool
  countsLd : Bool
  dst : List RegName
  accs : List Acc
  got : List (Nat × Nat)
  performed : Bool
  result : List RegWrite
  seq : Nat
  deriving DecidableEq, Repr

/-- The payload of a delivery (R45). -/
inductive Parcel where
  | bytes (stall off : Nat) (bytes : List Byte)
  | count (stall off n : Nat)
  | item (pc payload : Word) (stage : Nat)
  | fetchw (off : Nat)
  | mailbox (off : Nat) (bytes : List Byte)
  deriving DecidableEq, Repr

/-- A delivery: its parts, which commit together (R315), whether it has reached the staging area, the gang each part was
bound to, and the TADDR of a failed check (R46). -/
structure Delivery where
  parts : List Parcel
  checked : Bool
  bound : List Nat
  failed : Option Word
  /-- the store operation that it acknowledges, by its sequence number -/
  store : Option Nat
  deriving DecidableEq, Repr

/-! ### Engine commands -/

/-- A registered interval (R172): its table slot is its position; the operation that owns it is named by number. -/
structure Lock where
  dst : Bool
  glb : Bool
  base : Nat
  len : Nat
  eng : BitVec 3
  qidx : Nat
  cmd : Nat
  deriving DecidableEq, Repr

/-- What an engine command does (R323, R325, R337 to R347, R370). Descriptors are held as the number of their bits; `bank`
is a physical bank of the stall. -/
inductive CmdKind where
  | cart (desc : Nat)
  | cartg (desc : Nat) (indices : List Nat)
  | bale
  | mloop (o : Slot) (a b c : Word) (bank : Nat)
  | mdrain (o : Slot) (dst : Nat) (bias : Word) (c : Word) (bank : Nat)
  | mclr (o : Slot) (bank : Nat)
  | groom (desc off : Nat) (mcap : BitVec 32) (s1 : Word)
  deriving DecidableEq, Repr

/-- A queued or running engine command: its number, the gang that issued it and whose allocation and TAGS it uses, the group
that counts it in CNTS (an adopter of the task that issued it, R187), its tag, its batch, the RIC and PC of its issue, its
translated pages as page number and location, and the scratchpad bytes it has computed (R339). -/
structure Cmd where
  id : Nat
  gang : Nat
  grp : Nat
  kind : CmdKind
  tag : Option Nat
  batch : BitVec 16
  ric : Word
  pc : Word
  running : Bool
  pages : List (Nat × Nat)
  /-- those of its pages that an entry of 32 MiB maps (R155), which an invalidation removes whole (R324) -/
  large : List Nat
  out : List (Nat × List Byte)
  /-- the group's accesses numbered below this one precede the issue, and the command's own accesses wait for them (R131) -/
  after : Nat
  deriving DecidableEq, Repr

/-! ### Logs and records of a group -/

/-- What an effect-log entry holds (R182): `payload` is the length of its payload in bytes. -/
structure Effect where
  kind : Nat
  ric : Word
  key : Word
  payload : Nat
  writes : List RegWrite
  /-- kind 4: complete, the scratchpad bytes written, and BALEST and BALEPA of a baling cart (R340) -/
  complete : Bool
  bytes : Memory
  cmd : Option Cmd
  bale : Option (Bool × Word × Bool)
  /-- kind 5 of LREFILL: the execution mask after it -/
  exm : Option (BitVec 32)
  deriving DecidableEq, Repr

/-- A closed batch that is not complete (R154): its number, its commands that are outstanding, and the number of the next
command at its MFENCE, before which the image of its completion is taken (R333). -/
structure Batch where
  number : BitVec 16
  cmds : List Nat
  mark : Nat
  deriving DecidableEq, Repr

/-- A full state saved at adoption entry (R85, R188) with the waiting group's batches. -/
structure Frame where
  regs : Regs
  batches : List Batch
  deriving DecidableEq, Repr

/-- One copy of a section of the stint record (R178): the registers a restart gives, the carry ranges' bytes. -/
structure Section where
  regs : Regs
  ric : Word
  time : Word
  done : Bool
  /-- TAGS of the gang at the boundary (R43) -/
  tags : Word
  frames : List Frame
  ranges : List (Nat × List Byte)
  deriving DecidableEq, Repr

/-- What ends a wait at a blocking point (R180). -/
inductive Wake where
  | barrier (object : Nat) (round : BitVec 32)
  /-- an ENQ that waits for room: its reserved slot -/
  | room (header : Word) (slot : Nat)
  /-- a QWAIT, on the slot at HEAD as it found it -/
  | items (header head : Word)
  | reply
  | future (record : Word)
  /-- `word`: the lock word that the waiter found; `freed`: an UNLOCK has woken it (R389) -/
  | lock (address word : Word) (freed : Bool)
  | credit
  | translation (va : Word) (seq : BitVec 16) (lanes : BitVec 32)
  deriving DecidableEq, Repr

/-- Where a group stands (R204 to R207, R232). -/
inductive Standing where
  /-- holds a slot -/
  | slot
  /-- parked with its wake condition -/
  | parked (w : Wake)
  /-- parked, its wake condition has held, and it waits for a slot -/
  | woken
  | exited
  deriving DecidableEq, Repr

/-- What a group does once its section has been accepted (R42, R377, R386). -/
inductive AfterSection where
  | issue
  | gbar
  | adopt (record : Word)
  deriving DecidableEq, Repr

/-- Progress of the boundary that a group is taking (R42). -/
inductive BoundaryStage where
  | none
  /-- its own effect has been performed; the credit check comes next -/
  | effectDone
  /-- the section has been written and waits for acceptance by the partner barn (R224) -/
  | sectionSent (next : AfterSection)
  /-- an adopted task has ended, and the adoption exit (R47, R188) comes next -/
  | leaving
  /-- a GBAR's group waits for its instance (R377) -/
  | gbar
  deriving DecidableEq, Repr

/-- A carry or receive range as bytes of the gang's allocation (R30). -/
structure Range where
  off : Nat
  len : Nat
  deriving DecidableEq, Repr

/-- A tile-tree allocation whose blocks have been taken and not yet linked (R170): the location of the volume's descriptor,
its content as read, the coordinate, the level and the location of the first absent entry, and the blocks from the root down,
each with its address and its location; the last is the tile. -/
structure Walk where
  desc : Nat
  d : Nat
  x : Nat
  y : Nat
  z : Nat
  level : Nat
  entry : Nat
  blocks : List (Word × Nat)
  deriving DecidableEq, Repr

/-- A group (R33, R34): its registers, its counters (R187), its operations, its deliveries, its records. -/
structure Group where
  r : Regs
  stage : Nat
  vbudget : Nat
  carryS : Word
  carryV : Nat
  cranges : List Range
  slot : Nat
  standing : Standing
  stage42 : BoundaryStage
  /-- the slot that follows the slot in issue (R250), and the next PC of a boundary in progress -/
  succ : Word
  /-- the slot in issue is the first or the second of a pair (R213) -/
  pairFirst : Bool
  pairSecond : Bool
  /-- CNTS and TAGS before the pair whose second slot is in issue (R76, R81) -/
  before : Option (Word × Word)
  ld : Nat
  st : Nat
  cp : Nat
  tl : Nat
  ops : List Op
  deliveries : List Delivery
  /-- records written by TASK and not yet published, with RUN (R135) -/
  tasks : List (Word × Bool)
  /-- commands of the open batch, and closed batches that are not complete (R154) -/
  openCmds : List Nat
  batches : List Batch
  ric : Word
  /-- the address of the transferring slot while a transfer's target has not been checked (R251) -/
  transferFrom : Option Word
  /-- the boundary that failed its credit check (R214): the address of its slot -/
  incomplete : Option Word
  /-- the wait in which the group last stood, if it is a blocking point (R207) -/
  blocked : Option Wake
  /-- panel time at which the present credit wait began (R144) -/
  waitSince : Option Word
  /-- host ports whose zero-length read the group's next release waits for (R108, R126) -/
  zlr : List Nat
  /-- a probe sent and not yet answered (R176) -/
  probing : Bool
  sections : List Section
  frames : List Frame
  effects : List Effect
  /-- effect-log entries not yet consumed in replay (R225) -/
  replay : List Effect
  /-- RICs of the engine operations whose entries were discarded at the latest restoring (R223) -/
  dropped : List Word
  /-- the start state by which the group began (R223) -/
  start : Regs
  /-- the reply of a boundary's effect held with its section, by the address of the boundary's slot (R224) -/
  heldReply : Option (Word × List RegWrite)
  /-- the locks taken, by address and by the identity written (R219, R388) -/
  locks : List (Word × Word)
  gbars : Nat
  /-- issue cycles in a row (R205) -/
  streak : Nat
  /-- issues made by a run in the callable slot (R367) -/
  issues : Nat
  /-- a cause that the group's next issue takes, with its lanes and address: PERMISSION after TFDONE's deny (R217), POISON
  after an access whose home has failed (R247) -/
  deny : Option (Cause × BitVec 32 × Word)
  /-- the address of a store whose acknowledgement came back as an error, for the group's next release (R247) -/
  storeFault : Option Word
  /-- words that its granted stores have written and that no release of its own has yet brought home (R125) -/
  wrote : List Nat
  /-- parked by a translation fault in a debugger's step, which ends at the wake (R232) -/
  stepping : Bool
  /-- the claim a boundary of an adoption entry made: record, former state, RSTALL word and SNEED (R386) -/
  claim : Option (Word × Nat × Word × Nat)
  /-- the allocation of its VOLST in progress (R170) -/
  walk : Option Walk
  deriving DecidableEq, Repr

/-- An event of the ring (R218). -/
structure Event where
  kind : BitVec 8
  cause : BitVec 8
  seq : BitVec 16
  launch : BitVec 32
  addr : Word
  stall : BitVec 17
  group : BitVec 4
  wr : Bool
  fetch : Bool
  mal : Bool
  gang : BitVec 32
  task : Word
  deriving DecidableEq, Repr

/-! ### Gangs and launches -/

/-- A role of a launch block (R29). -/
structure Role where
  entry : Word
  vbudget : Nat
  groups : Nat
  carryV : Nat
  carryS : Word
  cranges : List Range
  rranges : List Range
  deriving DecidableEq, Repr

/-- A launch whose block has been read (R29, R141): its identifier is its key. -/
structure Launch where
  queue : Nat
  trapPc : Word
  gx : Nat
  gy : Nat
  gz : Nat
  roles : List Role
  persist : Bool
  scrSize : Nat
  argp : Word
  donea : Word
  /-- the next gang to place, in linear index order -/
  next : Nat
  /-- ticks at which the next gang became unplaceable (R199) -/
  stuckSince : Option Word
  deriving DecidableEq, Repr

/-- The states of a restarting gang (R222). -/
inductive Phase where
  | running | lost | restoring | replay
  /-- parked and imaged out (R180) -/
  | imaged
  /-- ended; its engine operations run to completion (R219) -/
  | ending
  deriving DecidableEq, Repr

/-- One activation table (R184): SHIFT, FS and 64 entries of BASE and SLOPE. -/
structure ActTable where
  shift : BitVec 6
  fs : BitVec 5
  base : List (BitVec 32)
  slope : List (BitVec 16)
  deriving DecidableEq, Repr

/-- An intake-log entry (R181): KIND 1 bytes, 2 count, 3 item, 4 mailbox, with its stamps. -/
structure Intake where
  parcel : Parcel
  time : Word
  /-- kind 3: the number of its item -/
  seq : Nat
  stamp : List Word
  /-- kind 3: the group that has taken the item (R425) -/
  taker : Option Nat
  /-- a GBAR image taken in replay holds what the entry did, so that a further restart does not apply it again (R179, R222) -/
  imaged : Bool
  deriving DecidableEq, Repr

/-- An accumulator bank with its arrays and exponents (R331), and the gang and logical number that hold it. Elements are
listed by 32 row + column, exponents where they differ from 0x3F. -/
structure Bank where
  acc : KMap (BitVec 48)
  ra : KMap (BitVec 7)
  rb : KMap (BitVec 7)
  set : Bool
  bound : Option (Nat × Nat)
  deriving DecidableEq, Repr

/-- A pending request to run a task in a group of its own (R384): its record, the stage, SNEED, and its place in the order
of publication (the model's own number, log 1). -/
structure RunReq where
  task : Word
  stage : Nat
  need : Nat
  order : Nat
  deriving DecidableEq, Repr

/-- A gang (R27, R28) by launch identifier and linear index. -/
structure Gang where
  stall : Nat
  scrbase : Nat
  scrsize : Nat
  tags : Word
  tables : List ActTable
  phase : Phase
  placedAt : Word
  cycles : Nat
  slotsMax : Nat
  withdrawn : Nat
  /-- space needed by running and parked tasks, by record address (R384) -/
  reserved : List (Word × Nat)
  runReqs : List RunReq
  intake : List Intake
  /-- entries still to be applied in replay (R225) -/
  toApply : List Intake
  gbarDone : Nat
  receiveImage : List (Nat × List Byte)
  /-- the latest carry images of exited groups whose numbers have been given out again: time, number, ranges (R44, R179) -/
  carries : List (Nat × Nat × List (Nat × List Byte))
  allocImage : Option Memory
  /-- the bytes of the image that are poisoned, by own offset (R102, R180) -/
  imagePoison : List Nat
  /-- images of the gang's banks by logical number; they cover the plane-array commands numbered below `imaged`, and the
  commands `covers` that acted again in replay before the image was taken (R333) -/
  bankImages : List (Nat × Bank)
  imaged : Nat
  covers : List Nat
  /-- commands that have acted on the banks since the gang was restored (R333) -/
  acted : List Nat
  /-- images that are due: each once the gang's commands numbered below it have run (R333) -/
  imageDue : List Nat
  /-- banks that the gang held when it lost its stall (R332) -/
  banksHeld : Nat
  /-- commands outstanding when the gang's stall was lost, with their intervals (R223) -/
  held : List (Cmd × List Lock)
  /-- why the gang was ended (R219): its event of kind 2 -/
  ended : Option Event
  /-- a record of the gang is beyond rebuilding (R102, R231) -/
  recordBad : Bool
  order : Nat
  deriving DecidableEq, Repr

/-! ### Stalls, stables, barns -/

/-- One line of an L1 (R96, R123): its tag (a line of global locations, or of the loft), the valid, owned and dirty
marks, and its bytes. Least recently used lines stand last. -/
structure Line where
  loft : Bool
  tag : Nat
  valid : BitVec 16
  owned : BitVec 16
  dirty : BitVec 64
  data : BitVec 512
  deriving DecidableEq, Repr

/-- A translation held by a TLB (R156, R158): a valid leaf entry with its page. -/
structure TlbEntry where
  vpn : Nat
  large : Bool
  pte : Word
  deriving DecidableEq, Repr

/-- An item (R38) with the gang and stage the panel keeps with it. Items are numbered in the order of their credit (R142),
which the intake entry that records an item repeats (R425); the numbers are the model's own (log 57). -/
structure Item where
  pc : Word
  payload : Word
  gang : Nat
  stage : Nat
  seq : Nat
  deriving DecidableEq, Repr

/-- A packing bin (R39). -/
structure Bin where
  gang : Nat
  stage : Nat
  pc : Word
  items : List Item
  ready : Bool
  deriving DecidableEq, Repr

/-- The debug control of a group slot (R232). -/
structure DbgCtl where
  att : Bool
  hreq : Bool
  step : Bool
  run : Bool
  halted : Bool
  /-- the halt was made by BRK, which retires when the group resumes (R232, R282) -/
  atBrk : Bool
  deriving DecidableEq, Repr

/-- A performance counter and its control register (R193). -/
structure Pm where
  count : BitVec 48
  event : BitVec 5
  en : Bool
  ovf : Bool
  /-- the owner has written the count in the present cycle (R193) -/
  written : Bool
  deriving DecidableEq, Repr

/-- Who asked for a callable's run: a group's TCALL, or a GROOM command of a stable (R367). -/
inductive Caller where
  | group
  | groom (stable cmd : Nat)
  deriving DecidableEq, Repr

/-- A request to run a callable (R367): the gang, the requesting group, its s1, the entry, the lanes and their inputs. -/
structure CallReq where
  who : Caller
  gang : Nat
  grp : Nat
  s1 : Word
  fn : Word
  lanes : BitVec 32
  inputs : List (Nat × List Lane)
  deriving DecidableEq, Repr

/-- A credit commit released to a stall (R45, R92, R152, R224): its parts with the gangs they are bound to. -/
structure Commit where
  parts : List (Nat × Parcel)
  deriving DecidableEq, Repr

/-- A stall by its panel stall number (R23). -/
structure Stall where
  scratch : Memory
  zmap : KMap Bool
  l1 : List Line
  utlb : List TlbEntry
  clb : List (Nat × Nat × Nat × Nat × Nat)
  locks : List Lock
  lines : List (Nat × Nat)
  cartq : List Cmd
  planeq : List Cmd
  banks : List Bank
  itemq : List Item
  spill : List Item
  bins : KMap Bin
  calls : List CallReq
  /-- the run that holds the callable slot (R367) -/
  calling : Option CallReq
  /-- resident groups, oldest issue age first (R205), and woken groups, oldest wake first (R204) -/
  ages : List Nat
  wakes : List Nat
  commits : List Commit
  /-- CYC less the panel's own count of cycles (R193, log 75) -/
  cyc : Word
  pm : List Pm
  /-- what has happened in the present cycle, by the event codes of R193 -/
  tally : KMap Nat
  dbg : KMap DbgCtl
  lost : Bool
  deriving DecidableEq, Repr

/-- The progress of one GROOM job (R371): the pixel, the next candidate, the record and the candidate in work, whether
it waits for a callable, and the counts it writes at completion. -/
structure GroomJob where
  cmd : Cmd
  stall : Nat
  stable : Nat
  pixel : Nat
  cand : Nat
  mine : List Lane
  other : List Lane
  waiting : Bool
  skips : Nat
  cause : Nat
  deriving DecidableEq, Repr

/-- An entry of the spare map and the hosting table of a logical stall (R185, R227); `host` is the panel number of the
logical stall behind which the host stands (the model's own, log 8). -/
structure Spare where
  phys : BitVec 9
  absent : Bool
  repl : Bool
  hostStable : BitVec 9
  hostPhys : BitVec 9
  hosted : Bool
  host : Nat
  deriving DecidableEq, Repr

/-- A stable by its number (R13). -/
structure Stable where
  /-- the moment of its latest restart's reset release; none: that of the cold boot (R192, log 56) -/
  release : Option Word
  /-- GTIME − PTIME, the part of LOFF beyond PTIME − LCNT (R192, log 74) -/
  ahead : Word
  synced : Bool
  sinceLowered : Nat
  raised : Bool
  /-- LOFF falls by 1 with the next tick (R192) -/
  lowering : Bool
  tlb : List TlbEntry
  cesram : BitVec 32
  cefetch : BitVec 32
  spares : KMap Spare
  failed : BitVec 384
  groomq : List Cmd
  jobs : List GroomJob
  /-- tile-map entries in use, by tile, each plus 1 (R166) -/
  tiles : KMap Nat
  lost : Bool
  deriving DecidableEq, Repr

/-- A line that a home slice holds (R101): a line of panel DRAM by its number, or a line of the loft. A slice writes each
merge through before it acknowledges (R229), so a held line has no value of its own. -/
structure HomeLine where
  loft : Bool
  tag : Nat
  deriving DecidableEq, Repr

/-- A barn by its number (R13): error counters, its part of the reservoir store, its home slices and their registration
directories (R101, R125), loss and movement (R103, R229). -/
structure Barn where
  cel2 : BitVec 32
  cedram : BitVec 32
  celink : BitVec 32
  store : Memory
  /-- the lines that each of the 8 slices holds, most recently used first -/
  l2 : KMap (List HomeLine)
  /-- the lines that each slice has evicted while words of theirs were owned, latest first -/
  dir : KMap (List Nat)
  lost : Bool
  moved : Bool
  /-- its data are beyond rebuilding (R103) -/
  dead : Bool
  deriving DecidableEq, Repr

/-- A launch queue (R138, R140): its ring as a list from HEADI. -/
structure LaunchQueue where
  prio : BitVec 2
  en : Bool
  quantum : BitVec 24
  entries : List (Word × BitVec 32)
  headi : BitVec 8
  full : Bool
  off : Bool
  rej : Bool
  deficit : Int
  deriving DecidableEq, Repr

/-- LQAPPEND's answer to one port (R140), and the loft map entry of a queue is beside it (R164). -/
structure AppendReply where
  lid : BitVec 32
  res : BitVec 2
  napp : BitVec 16
  deriving DecidableEq, Repr

/-- A yard context (R392, R393): its launch, descriptor, YPER, the masks by stable, A and Q by stall. -/
structure Yard where
  bound : Bool
  launch : BitVec 32
  desc : Word
  yper : Nat
  masks : KMap (BitVec 384)
  arrived : KMap Nat
  rounds : KMap (BitVec 32)
  deriving DecidableEq, Repr

/-- A host port (R237, R239, R245). -/
structure Port where
  denied : Bool
  clost : Bool
  refused : Bool
  link : Bool
  busMaster : Bool
  atomics : Bool
  downTicks : Nat
  /-- the intervals of its memory for which the host completes requests with an error (R108) -/
  bad : List (Nat × Nat)
  /-- host bytes that locked read-modify-writes have written in the present tick (R108) -/
  rmw : List Nat
  nonce : BitVec 256
  msix : List Nat
  /-- answers to reads, no bytes for an Unsupported Request (R233) -/
  reads : List (Option (List Byte))
  deriving DecidableEq, Repr

/-- A panel link (R246, R247). -/
structure PLink where
  en : Bool
  inb : Bool
  up : Bool
  peer : BitVec 6
  iwbase : Word
  iwlen : Word
  /-- the peer accepts inbound requests, and its window, in bytes -/
  peerInb : Bool
  peerBase : Nat
  peerLen : Nat
  /-- answers to inbound requests: no bytes for an error (R247) -/
  replies : List (Option (List Byte))
  deriving DecidableEq, Repr

/-- A pre-emption register (R208). -/
structure Preempt where
  launch : BitVec 32
  go : Bool
  /-- the launch was queued or resident when GO was written -/
  force : Bool
  deriving DecidableEq, Repr

/-- The loader (R243, R244). -/
structure Loader where
  state : BitVec 4
  err : BitVec 8
  version : BitVec 32
  buffer : Memory
  deriving DecidableEq, Repr

/-- What an attestation report holds, with its two signatures (R245). -/
structure Report where
  nonce : BitVec 256
  image : BitVec 384
  version : BitVec 32
  serial : BitVec 32
  spares : BitVec 384
  owner : BitVec 2
  epoch : BitVec 16
  ecdsa : List Byte
  lms : List Byte
  deriving DecidableEq, Repr

/-- Attestation (R245). -/
structure Attest where
  /-- requests in order of arrival, each with the nonce it took -/
  queue : List (Nat × BitVec 256)
  port : BitVec 2
  err : BitVec 8
  report : Option Report
  served : Nat
  deriving DecidableEq, Repr

/-- Ownership (R239). -/
structure Owner where
  owner : BitVec 2
  owned : Bool
  hport : BitVec 2
  hreq : Bool
  epoch : BitVec 16
  deriving DecidableEq, Repr

/-- The registers of the management window that configure the panel. -/
structure Window where
  ptEn : Bool
  ptRoot : BitVec 33
  kcode : BitVec 3
  lp : BitVec 9
  rs : BitVec 4
  ls : BitVec 32
  tmapBase : Word
  tmwm : BitVec 8
  tmhm : BitVec 8
  rppm : BitVec 4
  slotsm : BitVec 2
  tmapEn : Bool
  sync : Bool
  shootVpn : BitVec 41
  shootNpm : BitVec 16
  shootAll : Bool
  shootBusy : Bool
  starve : BitVec 16
  tfSeq : BitVec 16
  tfAction : BitVec 2
  loftwin : Word
  dbgStall : BitVec 17
  dbgSlot : BitVec 4
  deriving DecidableEq, Repr

/-- What has been chosen from outside the machine for a coming step (the model's own, log 1): an event of the panel,
or the stall whose turn it is to issue. -/
inductive Turn where
  | event (i : Instr)
  | issue (stall : Nat)
  deriving DecidableEq, Repr

/-- How the latest step ended (the model's own, log 1). -/
inductive Ended where
  | retired
  | held (wake : Nat)
  | trapped (cause : Nat)
  | parked
  | halted
  | event
  | idle
  deriving DecidableEq, Repr

/-- A request at the panel distributor (R152). -/
structure FetchReq where
  gang : Nat
  off : Nat
  deriving DecidableEq, Repr

structure State where
  ptime : Word
  /-- the cycles that have ended with the panel's own ticks (R193; the model's own, log 75) -/
  cycles : Word
  /-- the latest GTIME reading made on each stable, and the latest of other stables' readings before its latest acquire (R136) -/
  readings : KMap Word
  heard : KMap Word
  nextLid : BitVec 32
  lastStable : Nat
  ptrs : List Nat
  /-- queues whose next gang has starved, each holding back others until it is placed (R199) -/
  starving : List Nat
  lq : KMap LaunchQueue
  appends : KMap AppendReply
  loftmap : KMap (BitVec 64)
  launches : KMap Launch
  gangs : KMap Gang
  groups : KMap Group
  fetchReqs : List FetchReq
  cfg : Window
  evTail : BitVec 8
  evHead : BitVec 8
  evLost : Bool
  evSeq : BitVec 16
  evWaiting : List Event
  evRing : KMap Event
  preempt : List Preempt
  own : Owner
  ports : KMap Port
  links : KMap PLink
  deadLinks : List (Nat × Nat)
  loader : Loader
  att : Attest
  fwTvec : Word
  gmem : Memory
  poison : KMap Bool
  owners : KMap Nat
  /-- HOME of the leaf entry by which each 64 KiB page of panel DRAM is mapped, where it is not the default (R99, R156) -/
  homes : KMap Nat
  loft : Memory
  stalls : KMap Stall
  stables : KMap Stable
  barns : KMap Barn
  yards : KMap Yard
  nextCmd : Nat
  nextOp : Nat
  nextGang : Nat
  nextReq : Nat
  nextItem : Nat
  agenda : List Turn
  cur : Nat
  tried : List Nat
  last : Ended
  free : Nat
  /-- the cold boots before this one, which tell the free values of one boot from those of another (log 56) -/
  boots : Nat
  deriving DecidableEq, Repr

/-! ### The state after reset -/

/-- All registers of an empty group slot (R73, R74, R78, R82). -/
def Regs.zero : Regs :=
  { pc := 0, sup := false, serial := false, s := [], v := [], exm := 0xFFFFFFFF, lpart := 0, flmask := 0, tcause := 0,
    taddr := 0, tpc := 0, launchId := 0, taskId := 0, depth := 0, await := 0, rngKey0 := 0, rngKey1 := 0, mcap := 0,
    batchOpen := 1, batchDone := 0, psn := false, ovf := false, balepa := 0, stintno := 0, yctx := 0, tvec := 0,
    epc := 0, estat := 0, sscr0 := 0, sscr1 := 0, trapAt := none }

/-- A group before its start. -/
def Group.fresh : Group :=
  { r := Regs.zero, stage := 0, vbudget := 8, carryS := 0, carryV := 0, cranges := [], slot := 0, standing := .slot,
    stage42 := .none, succ := 0, pairFirst := false, pairSecond := false, before := none, ld := 0, st := 0, cp := 0, tl := 0, ops := [],
    deliveries := [], tasks := [], openCmds := [], batches := [], ric := 0, transferFrom := none, incomplete := none,
    blocked := none, waitSince := none, zlr := [], probing := false, sections := [], frames := [], effects := [], replay := [], dropped := [],
    start := Regs.zero, heldReply := none, locks := [], gbars := 0, streak := 0, issues := 0, deny := none,
    storeFault := none, wrote := [], stepping := false, claim := none,
    walk := none }

/-- The identity activation table of R184. -/
def ActTable.identity : ActTable :=
  { shift := 0, fs := 0, base := (List.range 64).map (fun (i : Nat) => BitVec.ofInt 32 (Int.ofNat i - 32)),
    slope := List.replicate 64 1 }

/-- A gang before its placement. -/
def Gang.fresh : Gang :=
  { stall := 0, scrbase := 0, scrsize := 0, tags := 0, tables := List.replicate 4 ActTable.identity, phase := .running,
    placedAt := 0, cycles := 0, slotsMax := 0, withdrawn := 0, reserved := [], runReqs := [], intake := [],
    toApply := [], gbarDone := 0, receiveImage := [], carries := [], allocImage := none, imagePoison := [], bankImages := [], imaged := 0, covers := [],
    acted := [], imageDue := [], banksHeld := 0, held := [], ended := none, recordBad := false, order := 0 }

/-- A launch none of whose fields is set. -/
def Launch.none : Launch :=
  { queue := 0, trapPc := 0, gx := 0, gy := 0, gz := 0, roles := [], persist := false, scrSize := 0, argp := 0,
    donea := 0, next := 0, stuckSince := .none }

/-- An accumulator bank at cold boot (R331). -/
def Bank.fresh : Bank := { acc := [], ra := [], rb := [], set := false, bound := none }

/-- A debug control at reset (R232). -/
def DbgCtl.off : DbgCtl := { att := false, hreq := false, step := false, run := false, halted := false, atBrk := false }

/-- A packing bin that is free (R39). -/
def Bin.empty : Bin := { gang := 0, stage := 0, pc := 0, items := [], ready := false }

/-- A stall at cold boot (R109, R172, R193). -/
def Stall.fresh : Stall :=
  { scratch := [], zmap := [], l1 := [], utlb := [], clb := [], locks := [], lines := [], cartq := [], planeq := [],
    banks := List.replicate 4 Bank.fresh, itemq := [], spill := [], bins := [], calls := [], calling := none, ages := [], wakes := [],
    commits := [], cyc := 0, tally := [], pm := List.replicate 8 { count := 0, event := 0, en := false, ovf := false, written := false }, dbg := [],
    lost := false }

/-- A logical stall's spare-map and hosting entry: the map by key lists a stall once it differs from this entry with
PHYS equal to its number (log 8). -/
def Spare.fresh : Spare :=
  { phys := 0, absent := false, repl := false, hostStable := 0, hostPhys := 0, hosted := false, host := 0 }

/-- A stable at cold boot (R158, R166, R192, R194). -/
def Stable.fresh : Stable :=
  { release := none, ahead := 0, synced := false, sinceLowered := 0, raised := false, lowering := false, tlb := [], cesram := 0, cefetch := 0,
    spares := [], failed := 0, groomq := [], jobs := [], tiles := [], lost := false }

/-- A barn at cold boot (R106, R109, R194). -/
def Barn.fresh : Barn :=
  { cel2 := 0, cedram := 0, celink := 0, store := [], l2 := [], dir := [], lost := false, moved := false, dead := false }

/-- A launch queue at reset (R138). -/
def LaunchQueue.fresh : LaunchQueue :=
  { prio := 0, en := false, quantum := 0x001000, entries := [], headi := 0, full := false, off := false, rej := false,
    deficit := 0 }

/-- LQAPPEND before any append (R140). -/
def AppendReply.none : AppendReply := { lid := 0, res := 0, napp := 0 }

/-- A free yard context (R392). -/
def Yard.free : Yard :=
  { bound := false, launch := 0, desc := 0, yper := 0, masks := [], arrived := [], rounds := [] }

/-- A host port at reset (R237, R239); log 6 gives Bus Master Enable and AtomicOp support. -/
def Port.fresh : Port :=
  { denied := false, clost := false, refused := false, link := false, busMaster := true, atomics := true,
    downTicks := 0, bad := [], rmw := [], nonce := 0, msix := [], reads := [] }

/-- A panel link at reset (R246). -/
def PLink.fresh : PLink :=
  { en := false, inb := false, up := false, peer := 0, iwbase := 0, iwlen := 0, peerInb := false, peerBase := 0,
    peerLen := 0, replies := [] }

/-- The management window at reset (R155, R159, R163, R165, R167, R199, R217, R232, R236). -/
def Window.fresh : Window :=
  { ptEn := false, ptRoot := 0, kcode := 0, lp := 0, rs := 0, ls := 0, tmapBase := 0, tmwm := 0, tmhm := 0, rppm := 0,
    slotsm := 0, tmapEn := false, sync := false, shootVpn := 0, shootNpm := 0, shootAll := false, shootBusy := false,
    starve := 0x0400, tfSeq := 0, tfAction := 0, loftwin := 0, dbgStall := 0, dbgSlot := 0 }

/-- An event-ring entry that nothing has written. -/
def Event.none : Event :=
  { kind := 0, cause := 0, seq := 0, launch := 0, addr := 0, stall := 0, group := 0, wr := false, fetch := false,
    mal := false, gang := 0, task := 0 }

/-- The panel at cold boot (R109, R248): the loader awaits an image, no port owns the panel, no launch has run. -/
def State.reset : State :=
  { ptime := 0, cycles := 0, readings := [], heard := [], nextLid := 1, lastStable := 287, ptrs := [0, 0, 0, 0], starving := [], lq := [], appends := [],
    loftmap := [], launches := [], gangs := [], groups := [], fetchReqs := [], cfg := Window.fresh,
    evTail := 0, evHead := 0, evLost := false, evSeq := 1, evWaiting := [], evRing := [],
    preempt := List.replicate 8 { launch := 0, go := false, force := false },
    own := { owner := 0, owned := false, hport := 0, hreq := false, epoch := 0 }, ports := [], links := [],
    deadLinks := [], loader := { state := 0, err := 0, version := 0, buffer := [] },
    att := { queue := [], port := 0, err := 0, report := none, served := 0 }, fwTvec := 0, gmem := [], poison := [],
    owners := [], homes := [], loft := [], stalls := [], stables := [], barns := [], yards := [], nextCmd := 0, nextOp := 0,
    nextGang := 0, nextReq := 0, nextItem := 0, agenda := [], cur := 0, tried := [], last := .idle, free := 0, boots := 0 }

end Sys2Proof.Machine
end

