-- ==== Sys2Proof/Machine/Regs.lean ====
section
/-!
DEFINITION. Access to the parts of the state: groups, gangs, stalls, stables, barns by key, and the one place where
scalar, vector and special registers are read and written (R73, R74, R77 to R82).
-/

namespace Sys2Proof.Machine

/-! ### Keys -/

/-- The key of a gang: launch identifier and linear gang index (R27). -/
def gangKey (lid : BitVec 32) (lin : Nat) : Nat := lid.toNat * 2 ^ 32 + lin % 2 ^ 32
/-- The key of a group: its gang and its number. -/
def groupKey (gang n : Nat) : Nat := gang * 32 + n
def gangOf (grp : Nat) : Nat := grp / 32
def numberOf (grp : Nat) : Nat := grp % 32
def lidOf (gang : Nat) : BitVec 32 := BitVec.ofNat 32 (gang / 2 ^ 32)
def linOf (gang : Nat) : Nat := gang % 2 ^ 32
/-- A run in a callable slot (R367) stands in its requester's gang, under a number that no group has. -/
def callableKey (gang : Nat) : Nat := groupKey gang 16
def isCallable (grp : Nat) : Bool := numberOf grp = 16
def stableOf (stall : Nat) : Nat := stall / 360
def logicalOf (stall : Nat) : Nat := stall % 360

/-! ### Parts of the state -/

def State.group? (s : State) (k : Nat) : Option Group := kfind s.groups k
def State.group (s : State) (k : Nat) : Group := (kfind s.groups k).getD Group.fresh
def State.setGroup (s : State) (k : Nat) (g : Group) : State := { s with groups := kinsert s.groups k g }
def State.modGroup (s : State) (k : Nat) (f : Group → Group) : State :=
  match s.group? k with
  | some g => s.setGroup k (f g)
  | none => s
def State.gang (s : State) (k : Nat) : Gang := (kfind s.gangs k).getD Gang.fresh
def State.gang? (s : State) (k : Nat) : Option Gang := kfind s.gangs k
def State.setGang (s : State) (k : Nat) (g : Gang) : State := { s with gangs := kinsert s.gangs k g }
def State.modGang (s : State) (k : Nat) (f : Gang → Gang) : State :=
  match s.gang? k with
  | some g => s.setGang k (f g)
  | none => s
def State.launch? (s : State) (lid : BitVec 32) : Option Launch := kfind s.launches lid.toNat
def State.launch (s : State) (lid : BitVec 32) : Launch := (s.launch? lid).getD Launch.none
def State.stall (s : State) (n : Nat) : Stall := kget Stall.fresh s.stalls n
def State.setStall (s : State) (n : Nat) (x : Stall) : State := { s with stalls := kset Stall.fresh s.stalls n x }
def State.modStall (s : State) (n : Nat) (f : Stall → Stall) : State := s.setStall n (f (s.stall n))
/-- A stall's counts of the present cycle: n more of an event (R193). -/
def Stall.tallied (st : Stall) (event n : Nat) : Stall :=
  { st with tally := kset 0 st.tally event (kget 0 st.tally event + n) }
def State.tallied (s : State) (stall event n : Nat) : State := s.modStall stall fun st => st.tallied event n
def State.stable (s : State) (n : Nat) : Stable := kget Stable.fresh s.stables n
def State.setStable (s : State) (n : Nat) (x : Stable) : State :=
  { s with stables := kset Stable.fresh s.stables n x }
def State.modStable (s : State) (n : Nat) (f : Stable → Stable) : State := s.setStable n (f (s.stable n))
def State.barn (s : State) (n : Nat) : Barn := kget Barn.fresh s.barns n
def State.setBarn (s : State) (n : Nat) (x : Barn) : State := { s with barns := kset Barn.fresh s.barns n x }
def State.queue (s : State) (q : Nat) : LaunchQueue := kget LaunchQueue.fresh s.lq q
def State.setQueue (s : State) (q : Nat) (x : LaunchQueue) : State :=
  { s with lq := kset LaunchQueue.fresh s.lq q x }
def State.port (s : State) (p : Nat) : Port := kget Port.fresh s.ports p
def State.setPort (s : State) (p : Nat) (x : Port) : State := { s with ports := kset Port.fresh s.ports p x }
def State.link (s : State) (l : Nat) : PLink := kget PLink.fresh s.links l
def State.setLink (s : State) (l : Nat) (x : PLink) : State := { s with links := kset PLink.fresh s.links l x }
def State.yard (s : State) (c : Nat) : Yard := kget Yard.free s.yards c
def State.setYard (s : State) (c : Nat) (x : Yard) : State := { s with yards := kset Yard.free s.yards c x }

/-- The spare-map entry of a logical stall, by panel stall number (R185). -/
def State.spare (s : State) (stall : Nat) : Spare :=
  kget { Spare.fresh with phys := BitVec.ofNat 9 (logicalOf stall) } (s.stable (stableOf stall)).spares
    (logicalOf stall)

/-- The stall that holds a logical stall's gangs: itself, or its host under R227, which is named by the panel number of the
logical stall behind which the host's physical stall stands. -/
def State.hostOf (s : State) (stall : Nat) : Nat :=
  let e := s.spare stall
  if e.hosted then e.host else stall

/-! ### The group in issue -/

/-- The group in issue. -/
def State.me (s : State) : Group := s.group s.cur
def State.setMe (s : State) (g : Group) : State := s.setGroup s.cur g
def State.modMe (s : State) (f : Group → Group) : State := s.setMe (f s.me)
/-- Its gang. -/
def State.myGang (s : State) : Gang := s.gang (gangOf s.cur)
/-- The logical stall of its gang (R28). -/
def State.myStall (s : State) : Nat := s.myGang.stall
/-- The stall that runs it (R227). -/
def State.here (s : State) : Nat := s.hostOf s.myStall
/-- Its launch: the launch of its gang (R27). -/
def State.myLaunch (s : State) : Launch := s.launch (lidOf (gangOf s.cur))

/-! ### Scalar and vector registers -/

/-- s0 reads as zero (R73). -/
def Regs.getS (r : Regs) (n : Nat) : Word := if n = 0 then 0 else kget 0 r.s n
/-- A write to s0 is discarded (R73). -/
def Regs.setS (r : Regs) (n : Nat) (x : Word) : Regs := if n = 0 then r else { r with s := kset 0 r.s n x }
/-- Lane l of vN (R74). -/
def Regs.getV (r : Regs) (n l : Nat) : Lane := kget 0 r.v (32 * n + l)
def Regs.setV (r : Regs) (n l : Nat) (x : Lane) : Regs := { r with v := kset 0 r.v (32 * n + l) x }
/-- Lane l of the pair vN:vN+1 as a 64-bit element (R54). -/
def Regs.getVV (r : Regs) (n l : Nat) : Word := (r.getV (n + 1) l) ++ (r.getV n l)
/-- Write a 64-bit element to lane l of the pair (R54). -/
def Regs.setVV (r : Regs) (n l : Nat) (x : Word) : Regs :=
  (r.setV n l (x.extractLsb' 0 32)).setV (n + 1) l (x.extractLsb' 32 32)

/-- One register write. -/
def Regs.write (r : Regs) : RegWrite → Regs
  | .s n x => r.setS n x
  | .v n l x => r.setV n l x

/-- Register writes in order. -/
def Regs.writes (r : Regs) (ws : List RegWrite) : Regs := ws.foldl Regs.write r

/-- The active lanes in ascending number (R7, R34). -/
def lanesOf (m : BitVec 32) : List Nat := (List.range 32).filter fun l => m.getLsbD l
def Regs.active (r : Regs) : List Nat := lanesOf r.exm
/-- The mask of a list of lanes. -/
def maskOf (ls : List Nat) : BitVec 32 := ls.foldl (fun m l => m ||| (1#32 <<< l)) 0

/-! ### Special registers -/

/-- CNTS (R79). -/
def Group.cnts (g : Group) : Word :=
  BitVec.ofNat 64 (g.ld % 64 + g.st % 64 * 2 ^ 8 + g.cp % 64 * 2 ^ 16 + g.tl % 64 * 2 ^ 24)

/-- A user special register as SRD reads it (R78, R79); none where the index has no register. -/
def State.userSpecial (s : State) (k : Nat) (idx : Nat) : Option Word :=
  let g := s.group k
  let r := g.r
  let gk := gangOf k
  let gang := s.gang gk
  let l := s.launch (lidOf gk)
  let lin := linOf gk
  match idx with
  | 0 => some (r.exm.setWidth 64)
  | 1 => some (r.lpart.setWidth 64)
  | 2 => some (match g.before with | some (_, t) => t | none => gang.tags)
  | 3 => some (r.flmask.setWidth 64)
  | 4 => some (r.tcause.setWidth 64)
  | 5 => some r.taddr
  | 6 => some r.tpc
  | 7 => some (BitVec.ofNat 64 (if isCallable k then g.slot else numberOf k))
  | 8 => some (BitVec.ofNat 64 (lin % l.gx))
  | 9 => some (BitVec.ofNat 64 (lin / l.gx % l.gy))
  | 10 => some (BitVec.ofNat 64 (lin / l.gx / l.gy))
  | 11 => some (BitVec.ofNat 64 g.stage)
  | 12 => some (BitVec.ofNat 64 gang.stall)
  | 13 => some (BitVec.ofNat 64 (stableOf gang.stall))
  | 14 => some (r.launchId.setWidth 64)
  | 15 => some r.taskId
  | 16 => some (r.depth.setWidth 64)
  | 17 => some r.await
  | 18 => some (r.rngKey0.setWidth 64)
  | 19 => some (r.rngKey1.setWidth 64)
  | 20 => some (r.mcap.setWidth 64)
  | 21 => some (match g.before with | some (c, _) => c | none => g.cnts)
  | 22 => some ((r.batchDone ++ r.batchOpen).setWidth 64)
  | 23 => some (BitVec.ofNat 64 (r.psn.toNat + 2 * r.ovf.toNat))
  | 24 => some r.balepa
  | 25 => some (r.stintno.setWidth 64)
  | 26 => some (r.yctx.setWidth 64)
  | 27 => some (BitVec.ofNat 64 gang.scrbase)
  | 28 => some (BitVec.ofNat 64 gang.scrsize)
  | _ => none

/-- A supervisor register (R82). -/
def Regs.supervisor (r : Regs) (idx : Nat) : Option Word :=
  match idx with
  | 32 => some r.tvec
  | 33 => some r.epc
  | 34 => some (r.estat.setWidth 64)
  | 35 => some r.sscr0
  | 36 => some r.sscr1
  | _ => none

/-- Any special register by index. -/
def State.special (s : State) (k : Nat) (idx : Nat) : Option Word :=
  if idx < 32 then s.userSpecial k idx else (s.group k).r.supervisor idx

/-- The effect of SWR on the registers of the group (R77, R79, R276): writes to RO and HW registers are discarded. An
LPART value of 5 to 7 is refused before this. -/
def Regs.writeSpecial (r : Regs) (idx : Nat) (x : Word) : Regs :=
  match idx with
  | 0 => { r with exm := x.extractLsb' 0 32 }
  | 1 => { r with lpart := x.extractLsb' 0 3 }
  | 18 => { r with rngKey0 := x.extractLsb' 0 32 }
  | 19 => { r with rngKey1 := x.extractLsb' 0 32 }
  | 20 => { r with mcap := x.extractLsb' 0 32 }
  | 23 => { r with psn := r.psn && !x.getLsbD 0, ovf := r.ovf && !x.getLsbD 1 }
  | 26 => { r with yctx := x.extractLsb' 0 2 }
  | 32 => { r with tvec := x }
  | 33 => { r with epc := x }
  | 34 => { r with estat := x.extractLsb' 0 11 }
  | 35 => { r with sscr0 := x }
  | 36 => { r with sscr1 := x }
  | _ => r

/-- The lane tile width of LPART (R36). -/
def Regs.tileWidth (r : Regs) : Nat := 32 >>> r.lpart.toNat

end Sys2Proof.Machine
end

