-- ==== Sys2Proof/Machine/Stop.lean ====
section
/-!
DEFINITION. How an instruction can fail to take effect: the causes (R212), a trap with its lanes and address (R84,
R213), a wait at issue (R206, R207).
-/

namespace Sys2Proof.Machine

/-- The code of a cause, which is its priority (R212). -/
def Cause.code : Cause → Nat
  | .illegalLine => 0x01 | .fetchParity => 0x02 | .illegalOp => 0x03 | .badTarget => 0x04 | .privilege => 0x05
  | .scrBounds => 0x06 | .translation => 0x07 | .permission => 0x08 | .rangeLocked => 0x09 | .misaligned => 0x0A
  | .poison => 0x0B | .volPoolEmpty => 0x0C | .volRange => 0x0D | .cvtOverflow => 0x0E | .barrierCount => 0x0F
  | .deadlock => 0x10 | .replayDiverge => 0x11 | .divide => 0x12 | .trapInsn => 0x13 | .debug => 0x14

/-- A lane's cause with its address, and for TRANSLATION what the event of kind 1 says of the access (R218). -/
structure LaneFault where
  cause : Cause
  addr : Word
  wr : Bool
  mal : Bool
  deriving DecidableEq, Repr

/-- A trap as reported (R84, R213): its cause, FLMASK, TADDR, and the marks of a translation event. -/
structure Trap where
  cause : Cause
  lanes : BitVec 32
  addr : Word
  wr : Bool
  fetch : Bool
  mal : Bool
  deriving DecidableEq, Repr

/-- A cause that does not belong to lanes sets FLMASK to all ones (R212). -/
def Trap.whole (c : Cause) (addr : Word) : Trap :=
  { cause := c, lanes := 0xFFFFFFFF, addr := addr, wr := false, fetch := false, mal := false }

def LaneFault.plain (c : Cause) (addr : Word) : LaneFault := { cause := c, addr := addr, wr := false, mal := false }

/-- A lane fault as a trap of an instruction whose causes do not belong to lanes. -/
def LaneFault.whole (f : LaneFault) : Trap :=
  { cause := f.cause, lanes := 0xFFFFFFFF, addr := f.addr, wr := f.wr, fetch := false, mal := f.mal }

/-- Why an instruction does not complete in this step. `keep` is the state it leaves: the state before it, but for the
effects that R214 and R320 let stand. A wait names its wake condition when it is a blocking point (R207). -/
inductive Stop where
  | trap (t : Trap)
  | trapKeep (t : Trap) (keep : State)
  | hold (w : Option Wake)
  | holdKeep (w : Option Wake) (keep : State)
  deriving DecidableEq, Repr

/-- The result of a meaning's core: the state with the instruction's effect, or why it has none. -/
abbrev Eff := Except Stop State

def trapNow {α : Type} (c : Cause) (addr : Word := 0) : Except Stop α := .error (.trap (Trap.whole c addr))
def holdNow {α : Type} : Except Stop α := .error (.hold none)
/-- Require a condition, else a cause that does not belong to lanes. -/
def need (b : Bool) (c : Cause) (addr : Word := 0) : Except Stop Unit := if b then .ok () else trapNow c addr

/-- The reported trap of lane faults: the lowest cause, its lanes, the lowest lane's address (R84, R213). -/
def reportLanes (fs : List (Nat × LaneFault)) : Option Trap :=
  match fs with
  | [] => none
  | (_, f) :: _ =>
    let c := fs.foldl (fun c p => if p.2.cause.code < c.code then p.2.cause else c) f.cause
    let hit := fs.filter fun p => p.2.cause = c
    let lowest := hit.foldl (fun (b : Nat × LaneFault) p => if p.1 < b.1 then p else b) (hit.headD (0, f))
    some { cause := c, lanes := maskOf (hit.map Prod.fst), addr := lowest.2.addr, wr := lowest.2.wr, fetch := false,
           mal := lowest.2.mal }

/-- Check every lane before any lane performs anything (R213, R312): all results, or the reported trap. -/
def gatherLanes {α : Type} (lanes : List Nat) (f : Nat → Except LaneFault α) : Except Stop (List (Nat × α)) :=
  let rs := lanes.map fun l => (l, f l)
  let faults := rs.filterMap fun p => match p.2 with | .error e => some (p.1, e) | .ok _ => none
  match reportLanes faults with
  | some t => .error (.trap t)
  | none => .ok (rs.filterMap fun p => match p.2 with | .ok x => some (p.1, x) | .error _ => none)

/-- Run a check that does not belong to lanes. -/
def wholeCheck {α : Type} (x : Except LaneFault α) : Except Stop α :=
  match x with
  | .ok a => .ok a
  | .error f => .error (.trap f.whole)

end Sys2Proof.Machine
end

