-- ==== Sys2Proof/Machine/Mem.lean ====
section
/-!
DEFINITION. Global memory: locations and their homes (R97 to R99, R161), the constant page (R162, R183), poison (R102,
R103, R247), ownership and the coherent value of a byte (R123, R124), the L1 of a stall (R96, R120, R127).

A global location is one number: the physical address for panel DRAM, and HOME × 2^52 plus pa[50:0] for foreign memory,
so that each host, each joined panel and the constant page has its own bytes.
-/

namespace Sys2Proof.Machine

/-! ### The die grid -/

/-- The column and row of stable or barn n (R12, R13). -/
def stablePos (n : Nat) : Nat × Nat := (2 * (n % 12) + n / 12 % 2, n / 12)
def barnPos (n : Nat) : Nat × Nat := (2 * (n % 12) + (1 - n / 12 % 2), n / 12)
/-- The number of the die at a position (R13). -/
def dieAt (col row : Nat) : Nat := row * 12 + col / 2
/-- The partner barn of a stable (R14). -/
def partnerBarn (stable : Nat) : Nat :=
  let p := stablePos stable
  if p.1 < 23 then dieAt (p.1 + 1) p.2 else dieAt 22 p.2
/-- The barn of a host port (R233). -/
def portBarn (p : Nat) : Nat :=
  match p with
  | 0 => dieAt 11 0 | 1 => dieAt 0 11 | 2 => dieAt 23 12 | _ => dieAt 12 23
/-- The barn of a panel link (R246). -/
def linkBarn (l : Nat) : Nat :=
  if l < 12 then dieAt (2 * l + 1) 0
  else if l < 24 then dieAt 0 (2 * (l - 12) + 1)
  else if l < 36 then dieAt 23 (2 * (l - 24))
  else dieAt (2 * (l - 36)) 23

/-! ### Locations -/

def mib : Nat := 2 ^ 20
/-- Bytes of general DRAM in each barn (R97). -/
def State.generalBytes (s : State) : Nat :=
  16 * 1024 * mib - 256 * mib - s.cfg.lp.toNat * 32 * mib - s.cfg.rs.toNat * 4 * mib
/-- The first physical address beyond general DRAM (R97). -/
def State.dramLimit (s : State) : Nat := 288 * s.generalBytes
/-- The backing barn of a DRAM address (R98). -/
def backingBarn (pa : Nat) : Nat :=
  let n := pa / 0x10000
  (n % 288 + 97 * (n / 288)) % 288
/-- The location of a foreign address under a HOME (R161). -/
def foreignLoc (home pa : Nat) : Nat := home * 2 ^ 52 + pa % 2 ^ 51
def homeOfLoc (loc : Nat) : Nat := loc / 2 ^ 52
def paOfLoc (loc : Nat) : Nat := loc % 2 ^ 52

/-- The banded-latency table (R183), read at the start of the constant page (R162). -/
def latencyTable : List Nat :=
  [0x00020028000E0000, 0x0006005000180201, 0x000E00A000280803, 0x001E0140006E1409, 0x003C025800E62E15]
def constantByte (off : Nat) : Byte := BitVec.ofNat 8 (latencyTable.getD (off / 8) 0 >>> (off % 8 * 8))

/-! ### Poison -/

/-- The other barns of a barn's parity ring, in ascending number (R103). -/
def ringOthers (b : Nat) : List Nat := ((List.range 8).map fun i => b / 8 * 8 + i).filter (· != b)

/-- The offset of a physical address in its barn's general area (R98). -/
def generalOffset (pa : Nat) : Nat := pa / 0x10000 / 288 * 0x10000 + pa % 0x10000

/-- The barn whose cells hold the line of a DRAM location: a moved line stands in the parity cells of a survivor, 2 GiB in
each, in offset order (R103, R229). -/
def State.cellBarn (s : State) (loc : Nat) : Nat :=
  let b := backingBarn loc
  if (s.barn b).moved then (ringOthers b).getD (generalOffset loc / 2 ^ 31) b else b

/-- The location's data are beyond rebuilding with their barn (R103, R231). -/
def State.deadAt (s : State) (loc : Nat) : Bool := homeOfLoc loc = 0 && (s.barn (s.cellBarn loc)).dead

/-- The home given to a page of an engine command whose requests were outstanding when its home failed (R247): a HOME that no
entry names. -/
def cutHome : Nat := 0x1FE

/-- A location of a home that cannot answer: a host port whose link is down (R248), host memory for which the host answers with
an error (R108), or a panel link that is down, whose peer accepts nothing, or that meets an address outside the peer's window
(R247). -/
def State.unreachable (s : State) (loc : Nat) : Bool :=
  let h := homeOfLoc loc
  if 1 ≤ h ∧ h ≤ 4 then
    let p := s.port (h - 1)
    !p.link || p.bad.any fun x => x.1 ≤ paOfLoc loc && paOfLoc loc < x.1 + x.2
  else if 0x10 ≤ h ∧ h ≤ 0x3F then
    let l := s.link (h - 0x10)
    !l.up || !l.peerInb || paOfLoc loc < l.peerBase || l.peerBase + l.peerLen ≤ paOfLoc loc
  else h = cutHome

/-- The byte is poisoned (R102): marked alone, or with its barn; the map lists what differs from its barn. -/
def State.poisoned (s : State) (loc : Nat) : Bool :=
  kget false s.poison loc != s.deadAt loc

/-- Rewriting a byte ends its poison (R102). -/
def State.cleanse (s : State) (loc : Nat) : State :=
  if s.poisoned loc then
    { s with poison := kset false s.poison loc (s.deadAt loc) }
  else s

/-- Mark a byte poisoned. -/
def State.markPoison (s : State) (loc : Nat) : State :=
  if s.poisoned loc then s
  else { s with poison := kset false s.poison loc (!s.deadAt loc) }

/-! ### Home slices (R99, R101) -/

/-- The home slice of a line within its home barn (R99). -/
def sliceOf (pa : Nat) : Nat := (pa / 2 ^ 6 ^^^ pa / 2 ^ 9 ^^^ pa / 2 ^ 12 ^^^ pa / 2 ^ 15) % 8

/-- The barn that a HOME field names for a physical address: 0 is the default, each granule at its backing barn (R99,
R161). -/
def homeBarnOf (home pa : Nat) : Nat := if home = 0 then backingBarn pa else home - 1

/-- The barn that holds the homes of a barn: itself, or the next of its ring that is not lost, ascending and wrapping
(R229). -/
def State.liveBarn (s : State) (b : Nat) : Nat :=
  if (s.barn b).lost then
    (((List.range 7).map fun i => b / 8 * 8 + (b + 1 + i) % 8).find? fun x => !(s.barn x).lost).getD b
  else b

/-- The home barn of a line of panel DRAM (R99). -/
def State.homeBarn (s : State) (loc : Nat) : Nat := s.liveBarn (homeBarnOf (kget 0 s.homes (loc / 0x10000)) loc)

/-- The ways of a slice that the reservoir store leaves (R101, R106). -/
def State.sliceWays (s : State) : Nat := 16 - s.cfg.rs.toNat

/-- The line that an insertion evicts from a slice: the least recently used of a full set (R101). -/
def sliceVictim (ways : Nat) (lines : List HomeLine) (x : HomeLine) : Option HomeLine :=
  if lines.length < ways then none
  else
    let same := lines.filter fun y => Sys2Proof.Config.l2Set y.loft y.tag = Sys2Proof.Config.l2Set x.loft x.tag
    if same.length < ways then none else same.getLast?

/-- The words of a line that some stall owns. -/
def State.ownedWords (s : State) (tag : Nat) : List Nat :=
  ((List.range 16).map fun w => 16 * tag + w).filter fun w => kget 0 s.owners w != 0

/-! ### Lines of an L1 -/

def Line.hasWord (l : Line) (w : Nat) : Bool := l.valid.getLsbD w || l.owned.getLsbD w
def Line.byte (l : Line) (i : Nat) : Byte := l.data.extractLsb' (8 * i) 8
def Line.isDirty (l : Line) (i : Nat) : Bool := l.dirty.getLsbD i
/-- Set one byte of a line's data. -/
def Line.setByte (l : Line) (i : Nat) (b : Byte) : Line :=
  { l with data := (l.data &&& ~~~((255 : BitVec 512) <<< (8 * i))) ||| ((b.setWidth 512) <<< (8 * i)) }
def setBit {w : Nat} (x : BitVec w) (i : Nat) (b : Bool) : BitVec w :=
  if b then x ||| (1#w <<< i) else x &&& ~~~(1#w <<< i)

/-- The L1 line that holds a line of locations (or of the loft). -/
def Stall.line? (st : Stall) (loft : Bool) (tag : Nat) : Option Line :=
  st.l1.find? fun l => l.loft = loft && l.tag = tag
/-- Put a line at the front of the least-recently-used order, in place of its old copy. -/
def Stall.putLine (st : Stall) (x : Line) : Stall :=
  { st with l1 := x :: st.l1.filter fun l => !(l.loft = x.loft && l.tag = x.tag) }
def Line.empty (loft : Bool) (tag : Nat) : Line :=
  { loft := loft, tag := tag, valid := 0, owned := 0, dirty := 0, data := 0 }
/-- The line of the same set that an insertion evicts: the least recently used of four (R96). DESIGN CHOICE (log 65): R96 gives
the set of a physical address, and a line of the loft, tagged by loft offset, takes the set that bits [11:6] of its offset
give. -/
def Stall.victim? (st : Stall) (tag : Nat) : Option Line :=
  let same := st.l1.filter fun l => l.tag % 64 = tag % 64
  if same.length < 4 then none else same.getLast?

/-! ### The coherent value -/

/-- The stall that owns the word of a location (R123). -/
def State.ownerOf (s : State) (loc : Nat) : Option Nat :=
  match kget 0 s.owners (loc / 4) with
  | 0 => none
  | n + 1 => some n

/-- The latest value of a byte in the global order (R118, R124): the owner's dirty byte, else the home's. -/
def State.coherent (s : State) (loc : Nat) : Byte :=
  if homeOfLoc loc = 0x1FF then constantByte (loc % 0x10000)
  else
    match s.ownerOf loc with
    | none => s.gmem.read loc
    | some n =>
      match (s.stall n).line? false (loc / 64) with
      | none => s.gmem.read loc
      | some l => if l.isDirty (loc % 64) then l.byte (loc % 64) else s.gmem.read loc

/-- The owner of a location's word holds the byte dirty. -/
def State.dirtyAt (s : State) (loc : Nat) : Bool :=
  match s.ownerOf loc with
  | none => false
  | some n => match (s.stall n).line? false (loc / 64) with
    | none => false
    | some l => l.isDirty (loc % 64)

/-- A coherent read of the byte meets poison: the home holds it poisoned and no owner supplies it (R102, R124). -/
def State.poisonAt (s : State) (loc : Nat) : Bool := s.poisoned loc && !s.dirtyAt loc

/-- The n coherent bytes at a location as a number (R2). -/
def State.coherentN (s : State) (loc n : Nat) : Nat := leValue ((List.range n).map fun i => s.coherent (loc + i))

/-- Write one byte at its home: the byte is merged and its poison ends. -/
def State.homeWrite (s : State) (loc : Nat) (b : Byte) : State :=
  let s := s.cleanse loc
  { s with gmem := s.gmem.write loc b }

/-- Give up one word of a line: its dirty bytes go home, and its marks are cleared (R123). -/
def giveUpWord (s : State) (stall : Nat) (l : Line) (w : Nat) : State × Line :=
  if l.owned.getLsbD w then
    let base := l.tag * 64 + 4 * w
    let s := (List.range 4).foldl
      (fun s i => if l.isDirty (4 * w + i) then s.homeWrite (base + i) (l.byte (4 * w + i)) else s) s
    let s := if s.ownerOf base = some stall then { s with owners := kset 0 s.owners (base / 4) 0 } else s
    let l := (List.range 4).foldl (fun l i => { l with dirty := setBit l.dirty (4 * w + i) false }) l
    (s, { l with owned := setBit l.owned w false, valid := setBit l.valid w false })
  else (s, l)

/-- Evict a line: every owned word is written back (R96). -/
def State.evict (s : State) (stall : Nat) (l : Line) : State :=
  let s := (List.range 16).foldl (fun p w => giveUpWord p.1 stall p.2 w) (s, l) |>.1
  s.modStall stall fun st => { st with l1 := st.l1.filter fun x => !(x.loft = l.loft && x.tag = l.tag) }

/-- Insert or replace a line, evicting from a full set (R96). -/
def State.insertLine (s : State) (stall : Nat) (x : Line) : State :=
  let st := s.stall stall
  match st.line? x.loft x.tag with
  | some _ => s.setStall stall (st.putLine x)
  | none =>
    match st.victim? x.tag with
    | none => s.setStall stall (st.putLine x)
    | some v => (s.evict stall v).modStall stall fun st => st.putLine x

/-- Revoke whatever stall owns the word of a location (R124). -/
def State.revoke (s : State) (loc : Nat) : State :=
  match s.ownerOf loc with
  | none => s
  | some n =>
    match (s.stall n).line? false (loc / 64) with
    | none => { s with owners := kset 0 s.owners (loc / 4) 0 }
    | some l =>
      let p := giveUpWord s n l (loc / 4 % 16)
      p.1.modStall n fun st => { st with l1 := st.l1.map fun x => if x.loft = false && x.tag = l.tag then p.2 else x }

/-! ### The home slices at work (R101, R125) -/

/-- Change one barn's slice k. -/
def State.setSlice (s : State) (b k : Nat) (lines : List HomeLine) : State :=
  s.setBarn b { s.barn b with l2 := kset [] (s.barn b).l2 k lines }
def State.setDir (s : State) (b k : Nat) (tags : List Nat) : State :=
  s.setBarn b { s.barn b with dir := kset [] (s.barn b).dir k tags }

/-- Enter an evicted line with owned words in a slice's directory of 8,192 entries: a full one revokes the registrations of
its least recently used entry and uses it again (R125). -/
def State.enterDir (s : State) (b k tag : Nat) : State :=
  let d := kget [] (s.barn b).dir k
  if d.length < 8192 then s.setDir b k (tag :: d)
  else
    let s := (s.ownedWords (d.getLastD 0)).foldl (fun s w => s.revoke (4 * w)) s
    s.setDir b k (tag :: d.dropLast)

/-- A slice holds a line, which leaves the slice's directory; a line that makes room goes into it when words of it are
owned (R101, R125). -/
def State.holdLine (s : State) (b k : Nat) (x : HomeLine) : State :=
  let lines := (kget [] (s.barn b).l2 k).filter (· != x)
  let d := (kget [] (s.barn b).dir k).filter fun t => x.loft || t != x.tag
  let s := s.setDir b k d
  match sliceVictim s.sliceWays lines x with
  | none => s.setSlice b k (x :: lines)
  | some v =>
    let s := s.setSlice b k (x :: lines.filter (· != v))
    if v.loft || (s.ownedWords v.tag).isEmpty then s else s.enterDir b k v.tag

/-- An access at the home of a location: its slice holds the line afterwards (R101). Foreign memory has no slice (R108). -/
def State.touchHome (s : State) (loc : Nat) : State :=
  if homeOfLoc loc = 0 then s.holdLine (s.homeBarn loc) (sliceOf loc) { loft := false, tag := loc / 64 } else s

/-- The lines of an interval at their homes. -/
def State.touchHomes (s : State) (loc n : Nat) : State :=
  (List.range ((loc + n + 63) / 64 - loc / 64)).foldl (fun s i => s.touchHome ((loc / 64 + i) * 64)) s

/-- The slices of a barn give their lines up: they are evicted, or the barn is lost. -/
def State.dropLines (s : State) (b : Nat) (f : HomeLine → Bool) : State :=
  s.setBarn b { s.barn b with l2 := ((s.barn b).l2.map fun p => (p.1, p.2.filter fun x => !f x)).filter fun p => p.2 != [] }

/-- A 64 KiB granule of panel DRAM gets the home that a HOME field names (R99): the lines of it leave the slices of the old
home, whose registrations go to the directories of the new one (R100). -/
def State.moveHome (s : State) (g home : Nat) : State :=
  let mine := fun (t : Nat) => t / 1024 = g
  let old := s.homeBarn (g * 0x10000)
  let tags := ((s.barn old).l2.flatMap fun p => (p.2.filter fun x => !x.loft && mine x.tag).map HomeLine.tag) ++
    (s.barn old).dir.flatMap fun p => p.2.filter mine
  let s := { s with homes := kset 0 s.homes g home }
  if s.homeBarn (g * 0x10000) = old then s
  else
    let s := s.dropLines old fun x => !x.loft && mine x.tag
    let s := s.setBarn old { s.barn old with dir := ((s.barn old).dir.map fun p => (p.1, p.2.filter fun t => !mine t)).filter fun p => p.2 != [] }
    (tags.filter fun t => !(s.ownedWords t).isEmpty).foldl (fun s t => s.enterDir (s.homeBarn (g * 0x10000)) (sliceOf (t * 64)) t) s

/-- Write bytes at the home, revoking ownership first: atomics, uncached stores, engines, hosts (R123, R124). -/
def State.writeCoherent (s : State) (loc : Nat) (bs : List Byte) : State :=
  ((List.range bs.length).zip bs).foldl (fun s p => (s.revoke (loc + p.1)).homeWrite (loc + p.1) p.2)
    (s.touchHomes loc bs.length)

/-- The little-endian bytes of a number. -/
def leBytes (n x : Nat) : List Byte := (List.range n).map fun i => BitVec.ofNat 8 (x >>> (8 * i))
def State.writeCoherentN (s : State) (loc n x : Nat) : State := s.writeCoherent loc (leBytes n x)

/-- Grant the registration of a word to a stall with the bytes stored in it (R123): it enters the global order. -/
def State.grantWord (s : State) (stall : Nat) (word : Nat) (cells : List Host.Cell) : State :=
  let loc := 4 * word
  let s := if s.ownerOf loc = some stall then s else (s.touchHome loc).revoke loc
  let l := ((s.stall stall).line? false (loc / 64)).getD (Line.empty false (loc / 64))
  let l := cells.foldl
    (fun l c => { (l.setByte (c.1 % 64) c.2) with dirty := setBit l.dirty (c.1 % 64) true }) l
  let l := { l with owned := setBit l.owned (word % 16) true, valid := setBit l.valid (word % 16) false }
  let s := s.insertLine stall l
  let s := cells.foldl (fun s c => s.cleanse c.1) s
  { s with owners := kset 0 s.owners word (stall + 1) }

/-- Bring the dirty bytes of an owned word to its home; the stall keeps the word (R125, log 21). -/
def State.mergeWord (s : State) (stall word : Nat) : State :=
  let loc := 4 * word
  match (s.stall stall).line? false (loc / 64) with
  | none => s
  | some l =>
    if s.ownerOf loc ≠ some stall then s
    else
      let at4 := fun (i : Nat) => loc % 64 + i
      let s := (List.range 4).foldl
        (fun s i => if l.isDirty (at4 i) then s.homeWrite (loc + i) (l.byte (at4 i)) else s) s
      let l := (List.range 4).foldl (fun l i => { l with dirty := setBit l.dirty (at4 i) false }) l
      s.modStall stall fun st => { st with l1 := st.l1.map fun x => if x.loft = false && x.tag = l.tag then l else x }

/-! ### Loads through the L1 -/

/-- The value a word-hit returns for one byte: the owned word is coherent, an unowned word holds its fill (R120). -/
def State.l1Byte? (s : State) (stall loc : Nat) : Option Byte :=
  match (s.stall stall).line? false (loc / 64) with
  | none => none
  | some l =>
    let w := loc / 4 % 16
    if l.owned.getLsbD w then some (s.coherent loc)
    else if l.valid.getLsbD w then some (l.byte (loc % 64))
    else none

/-- Fill the 32-byte sector of a location from the home as it stands (R96): an owned word is never overwritten, and a
poisoned word is not held. -/
def State.fillSector (s : State) (stall loc : Nat) : State :=
  let s := s.touchHome loc
  let tag := loc / 64
  let l := ((s.stall stall).line? false tag).getD (Line.empty false tag)
  let first := loc / 32 % 2 * 8
  let l := (List.range 8).foldl
    (fun l k =>
      let w := first + k
      let base := tag * 64 + 4 * w
      if l.owned.getLsbD w then l
      else if (List.range 4).any (fun i => s.poisoned (base + i)) then { l with valid := setBit l.valid w false }
      else
        let l := (List.range 4).foldl (fun l i => l.setByte (4 * w + i) (s.coherent (base + i))) l
        { l with valid := setBit l.valid w true }) l
  s.insertLine stall l

/-- A hit makes its line the most recently used of its set (R96). -/
def State.touchLine (s : State) (stall loc : Nat) : State :=
  match (s.stall stall).line? false (loc / 64) with
  | some l => s.insertLine stall l
  | none => s

/-- How a stall's L1 holds the word of a location. -/
inductive Held where
  | absent | unowned | owned
  deriving DecidableEq, Repr

def State.heldWord (s : State) (stall loc : Nat) : Held :=
  match (s.stall stall).line? false (loc / 64) with
  | none => .absent
  | some l =>
    if l.owned.getLsbD (loc / 4 % 16) then .owned
    else if l.valid.getLsbD (loc / 4 % 16) then .unowned
    else .absent

/-- The L1 answers an access of n bytes by itself: it owns every word of it, or holds every word of it from one fill. An
access that it holds in part reads whole at the home, so that it is not torn (R121). -/
def State.l1Hit (s : State) (stall loc n : Nat) : Bool :=
  let hs := (List.range n).map fun i => s.heldWord stall (loc + i)
  (hs.all (· = .owned)) || (hs.all (· = .unowned))

/-- A stall gives up the unowned words of an interval that its L1 holds: what its own group has read or written at the
home is no older than what the group reads afterwards (R120). -/
def State.freshen (s : State) (stall loc n : Nat) : State :=
  s.modStall stall fun st =>
    { st with l1 := st.l1.map fun l =>
        if l.loft then l
        else
          let hit := (List.range 16).filter fun w => l.tag * 64 + 4 * w < loc + n && loc < l.tag * 64 + 4 * w + 4
          { l with valid := hit.foldl (fun v w => setBit v w false) l.valid } }

/-- A write at the home by a group of a stall. -/
def State.writeFrom (s : State) (stall loc : Nat) (bs : List Byte) : State :=
  (s.writeCoherent loc bs).freshen stall loc bs.length

/-- One plain load's bytes at a location through the stall's L1 (R96, R120): a miss fills its sectors. A load counts as one hit
or one miss (R193, log 75). -/
def State.loadPlain (s : State) (stall loc n : Nat) (uncached : Bool) : State × Nat :=
  if uncached then ((s.touchHomes loc n).freshen stall loc n, s.coherentN loc n)
  else if s.l1Hit stall loc n then
    ((s.touchLine stall loc).tallied stall 5 1, leValue ((List.range n).map fun i => (s.l1Byte? stall (loc + i)).getD 0))
  else
    let one := s.fillSector stall loc
    let both : State := if loc / 32 != (loc + n - 1) / 32 then one.fillSector stall (loc + n - 1) else one
    (both.tallied stall 6 1, s.coherentN loc n)

/-- A read of n bytes meets poison: bytes that an L1 supplies do not (R102). -/
def State.readPoison (s : State) (stall loc n : Nat) (uncached : Bool) : Bool :=
  if !uncached && s.l1Hit stall loc n && s.heldWord stall loc = .unowned then false
  else (List.range n).any fun i => s.poisonAt (loc + i) || (s.ownerOf (loc + i) != some stall && s.unreachable (loc + i))

/-- A line without its unowned words; a loft line as it is (R127). -/
def Line.invalidated (l : Line) : Option Line :=
  if l.loft then some l else if l.owned = 0 then none else some { l with valid := 0 }

/-- Self-invalidation: every unowned word of the stall's L1, but for loft lines (R127). -/
def State.invalidate (s : State) (stall : Nat) : State :=
  s.modStall stall fun st => { st with l1 := st.l1.filterMap Line.invalidated }

/-- The later of two readings of panel time (R136). -/
def laterTime (a b : Word) : Word := if 0 < (b - a).toInt then b else a

/-- The latest GTIME reading made on a stable other than one (R136). -/
def State.otherReading (s : State) (stable : Nat) : Option Word :=
  (s.readings.filter fun p => p.1 != stable).foldl (fun m p => some (match m with | none => p.2 | some x => laterTime x p.2)) none

/-- A stable hears of the readings made before an acquire of its groups: those that happen before it are among them (R136). -/
def State.hear (s : State) (stable : Nat) : State :=
  match s.otherReading stable with
  | none => s
  | some x => { s with heard := kinsert s.heard stable x }

/-- An acquire of a group running on a stall (R127, R136). -/
def State.acquireAt (s : State) (stall : Nat) : State := (s.invalidate stall).hear (stableOf stall)

end Sys2Proof.Machine
end

