-- ==== Sys2Proof/Machine/Area.lean ====
section
/-!
DEFINITION. The record area of each barn (R97, R177): the bytes that a stall's records take (R178 to R182, R333), the 4 KiB
blocks they fill, and whether the records of a boundary or of a park find blocks (log 37).
-/

namespace Sys2Proof.Machine

/-! ### Sizes -/

/-- Payload bytes of an intake entry (R181). -/
def Parcel.payload : Parcel → Nat
  | .bytes _ _ bs => bs.length
  | .count .. => 4
  | .item .. => 16
  | .fetchw _ => 0
  | .mailbox _ bs => bs.length

/-- Bytes of an intake entry: a 16-byte header, a 128-byte stamp, the payload padded to 16 (R181). A request of FETCHW makes
two, its mailbox and the count on its object (R152). -/
def Parcel.logBytes (p : Parcel) : Nat :=
  match p with
  | .fetchw _ => (144 + 32) + (144 + 16)
  | p => 144 + (p.payload + 15) / 16 * 16

/-- The untrimmed intake log of a gang, in bytes (R181). -/
def Gang.intakeBytes (g : Gang) : Nat := (g.intake.map fun e => e.parcel.logBytes).sum

/-- The bytes of an entry in the effect log: 24 of header and the payload padded to 16 (R182). -/
def Effect.size (e : Effect) : Nat := 24 + (e.payload + 15) / 16 * 16
def Group.logSize (g : Group) : Nat := (g.effects.map Effect.size).sum

/-- One section copy (R178): header, the 21 special registers of R43, the carry set, the five supervisor registers. -/
def Group.sectionBytes (g : Group) : Nat :=
  64 + 21 * 8 + ((List.range 64).filter fun n => g.carryS.getLsbD n).length * 8 + g.carryV * 128 + 5 * 8

/-- A park record, and a frame of an adoption, which uses its layout (R179, R180): header, the 29 special registers of
R78, all scalar registers, the vector registers within VBUDGET, the supervisor registers. -/
def Group.parkBytes (g : Group) : Nat := 64 + 29 * 8 + 64 * 8 + g.vbudget * 128 + 5 * 8

/-- The image of a group's carry ranges (R179). -/
def Group.carryBytes (g : Group) : Nat := (g.cranges.map Range.len).sum

/-- The frame that a group's adoption entry has found room for and not yet written (R177, R386). -/
def BoundaryStage.framesDue : BoundaryStage → Nat
  | .sectionSent (.adopt _) => 1
  | _ => 0

/-- Bytes of a group's records: its section copies with the carry image, its frames, its park record, its effect log. -/
def Group.recordBytes (g : Group) : Nat :=
  min 2 g.sections.length * g.sectionBytes + (if g.sections.isEmpty then 0 else g.carryBytes) +
  (g.frames.length + g.stage42.framesDue) * g.parkBytes +
  (match g.standing with | .parked _ => g.parkBytes | .woken => g.parkBytes | _ => 0) + g.logSize

/-- A bank's image: its elements and its exponents (R331, R333). -/
def bankBytes : Nat := 0x1800 + 0x80

/-- Bytes of a gang's records: its intake log, the images of its receive ranges, of the carry ranges of exited groups, of its
allocation, of its banks. -/
def Gang.recordBytes (g : Gang) : Nat :=
  g.intakeBytes + (g.carries.flatMap fun c => c.2.2.map fun x => x.2.length).sum + (g.receiveImage.map fun x => x.2.length).sum +
  (if g.allocImage.isSome then g.scrsize else 0) +
  g.bankImages.length * bankBytes

/-- Bytes of the records of a logical stall's gangs and of the item spill (R142, R177). -/
def State.recordBytes (s : State) (stall : Nat) : Nat :=
  ((s.gangs.filter fun p => p.2.stall = stall).map fun p => p.2.recordBytes).sum +
  ((s.groups.filter fun p => !isCallable p.1 && (s.gang (gangOf p.1)).stall = stall).map fun p => p.2.recordBytes).sum +
  16 * (s.stall stall).spill.length

/-! ### Blocks -/

def blocksOf (bytes : Nat) : Nat := (bytes + 4095) / 4096
/-- Blocks of a record area: 256 MiB of 4 KiB (R97). -/
def areaBlocks : Nat := 65536

/-- The stalls that hold blocks in a barn's record area. -/
def State.recordStalls (s : State) (barn : Nat) : List Nat :=
  ((s.gangs.map fun p => p.2.stall) ++ (s.stalls.filter fun p => !p.2.spill.isEmpty).map Prod.fst).eraseDups.filter
    fun t => partnerBarn (stableOf t) = barn

/-- Blocks handed out, and blocks left (R177). -/
def State.usedBlocks (s : State) (barn : Nat) : Nat :=
  ((s.recordStalls barn).map fun t => blocksOf (s.recordBytes t)).sum
def State.freeBlocks (s : State) (barn : Nat) : Nat := areaBlocks - s.usedBlocks barn

/-- Records of some bytes on some stalls find the blocks they need. -/
def State.recordRoom (s : State) (needs : List (Nat × Nat)) : Bool :=
  let ts := (needs.map Prod.fst).eraseDups
  let more := fun (t : Nat) =>
    blocksOf (s.recordBytes t + ((needs.filter fun x => x.1 = t).map Prod.snd).sum) - blocksOf (s.recordBytes t)
  ((ts.map fun t => partnerBarn (stableOf t)).eraseDups).all fun b =>
    let n := ((ts.filter fun t => partnerBarn (stableOf t) = b).map more).sum
    n = 0 || n ≤ s.freeBlocks b

/-- The gang of the group in issue keeps its records with its logical stall (R227). What a boundary writes there: a section
copy if it has not both, with the first the carry image, and the frame of an adoption. -/
def State.sectionNeed (s : State) : Nat × Nat :=
  let g := s.me
  (s.myStall,
   (if g.sections.length < 2 then g.sectionBytes else 0) + (if g.sections.isEmpty then g.carryBytes else 0) +
   (if g.claim.isSome then g.parkBytes else 0))

/-- The park record of the group in issue finds its blocks. -/
def State.parkRoom (s : State) : Bool := s.recordRoom [(s.myStall, s.me.parkBytes)]

end Sys2Proof.Machine
end

