-- ==== Sys2Proof/Machine/Num.lean ====
section
/-!
DEFINITION. Numbers and formats: exact values, decoding and encoding of every element format (R52, R56, R63), rounding
(R59), overflow policies (R60), the conversions (R61, R62), and IEEE arithmetic on exact values (R57, R58, R291, R292).
-/

namespace Sys2Proof.Machine

/-! ### Integers -/

/-- SEXT(x, n) of R8. -/
def sext (x n : Nat) : Int :=
  let y := x % 2 ^ n
  if 2 * y < 2 ^ n then (y : Int) else (y : Int) - 2 ^ n
/-- ZEXT(x, n) of R8. -/
def zext (x n : Nat) : Nat := x % 2 ^ n
/-- EXT: SEXT for a signed type, ZEXT for an unsigned one (R271, R296). -/
def extTy (t : ETy) (x : Nat) : Int := if t.signed then sext x t.bits else (zext x t.bits : Int)
/-- x mod 2ⁿ as a pattern (R7). -/
def wrapInt (n : Nat) (x : Int) : Nat := (x % 2 ^ n).toNat
/-- The least and the greatest value of an integer format (R52). -/
def tyLeast (t : ETy) : Int := if t.signed then -(2 ^ (t.bits - 1)) else 0
def tyGreatest (t : ETy) : Int := if t.signed then 2 ^ (t.bits - 1) - 1 else 2 ^ t.bits - 1
/-- SAT(x, T) of R8. -/
def satInt (t : ETy) (x : Int) : Int := if x < tyLeast t then tyLeast t else if tyGreatest t < x then tyGreatest t else x

/-! ### Exact values -/

/-- An exact value: a NaN, an infinity, or (−1)^neg × m × 2^e; a zero keeps its sign. -/
inductive Number where
  | nan
  | inf (neg : Bool)
  | fin (neg : Bool) (m : Nat) (e : Int)
  deriving DecidableEq, Repr

def Number.ofInt (x : Int) : Number := .fin (x < 0) x.natAbs 0
def Number.isNan : Number → Bool
  | .nan => true
  | _ => false
def Number.neg : Number → Number
  | .nan => .nan
  | .inf s => .inf !s
  | .fin s m e => .fin (!s) m e
def Number.sign : Number → Bool
  | .nan => false
  | .inf s => s
  | .fin s _ _ => s

/-- A float format (R56): fraction bits, exponent of the least subnormal, greatest finite code, infinity code if any,
canonical NaN, total bits. -/
structure FFmt where
  frac : Nat
  emin : Int
  maxFin : Nat
  inf : Option Nat
  nan : Nat
  bits : Nat
  deriving DecidableEq, Repr

def fmtF32 : FFmt := ⟨23, -149, 0x7F7FFFFF, some 0x7F800000, 0x7FC00000, 32⟩
def fmtF16 : FFmt := ⟨10, -24, 0x7BFF, some 0x7C00, 0x7E00, 16⟩
def fmtBF16 : FFmt := ⟨7, -133, 0x7F7F, some 0x7F80, 0x7FC0, 16⟩
def fmtE4M3 : FFmt := ⟨3, -9, 0x7E, none, 0x7F, 8⟩
def fmtE5M2 : FFmt := ⟨2, -16, 0x7B, some 0x7C, 0x7E, 8⟩

/-- The format of a float type with a sign; E8M0 has none and stands apart. -/
def tyFmt : ETy → FFmt
  | .f16 => fmtF16
  | .bf16 => fmtBF16
  | .e4m3 => fmtE4M3
  | .e5m2 => fmtE5M2
  | _ => fmtF32

/-- The value of a code of a signed float format (R56). -/
def FFmt.decode (f : FFmt) (code : Nat) : Number :=
  let c := code % 2 ^ f.bits
  let neg := c.testBit (f.bits - 1)
  let mag := c % 2 ^ (f.bits - 1)
  if f.inf = some mag then .inf neg
  else if mag > f.maxFin then .nan
  else
    let ex := mag / 2 ^ f.frac
    if ex = 0 then .fin neg mag f.emin
    else .fin neg (2 ^ f.frac + mag % 2 ^ f.frac) (f.emin + (ex : Int) - 1)

/-- Round m × 2^e to a multiple of 2^q under a rounding field value (R59); the result counts multiples of 2^q. -/
def roundAt (mode : Nat) (neg : Bool) (m : Nat) (e q : Int) : Nat :=
  if q ≤ e then m <<< (e - q).toNat
  else
    let sh := (q - e).toNat
    let big := Nat.log2 m + 2 < sh
    let r := if big then 0 else m >>> sh
    let rem := if big then m else m % 2 ^ sh
    let above := !big && 2 ^ sh < 2 * rem
    let half := !big && 2 ^ sh = 2 * rem
    let up :=
      match mode with
      | 0 => above || (half && r % 2 = 1)
      | 1 => false
      | 2 => neg && rem != 0
      | _ => !neg && rem != 0
    if up then r + 1 else r

/-- The magnitude code of a rounded finite value with an unbounded exponent range: past the format's greatest code it
names no value of the format (R59). -/
def FFmt.roundCode (f : FFmt) (mode : Nat) (neg : Bool) (m : Nat) (e : Int) : Nat :=
  if m = 0 then 0
  else
    let q := max (e + Nat.log2 m - f.frac) f.emin
    ((q - f.emin) * 2 ^ f.frac + roundAt mode neg m e q).toNat

def FFmt.withSign (f : FFmt) (neg : Bool) (mag : Nat) : Nat := if neg then mag + 2 ^ (f.bits - 1) else mag

/-- ROUND(x, T, m) with IEEE 754's result on overflow (R59, R291). -/
def FFmt.round (f : FFmt) (mode : Nat) (x : Number) : Nat :=
  match x with
  | .nan => f.nan
  | .inf s => f.withSign s (f.inf.getD f.nan)
  | .fin s m e =>
    let c := f.roundCode mode s m e
    if c ≤ f.maxFin then f.withSign s c
    else
      let toInf := match mode with
        | 0 => true
        | 1 => false
        | 2 => s
        | _ => !s
      if toInf then f.withSign s (f.inf.getD f.nan) else f.withSign s f.maxFin

/-! ### IEEE arithmetic -/

/-- The signed integer multiple of 2^q that a finite value is, for q at or below its exponent. -/
def scaledInt (neg : Bool) (m : Nat) (e q : Int) : Int :=
  let x : Int := (m <<< (e - q).toNat : Nat)
  if neg then -x else x

/-- The exact sum; the sign of an exact zero follows the rounding field (R57). -/
def Number.add (mode : Nat) : Number → Number → Number
  | .nan, _ => .nan
  | _, .nan => .nan
  | .inf a, .inf b => if a = b then .inf a else .nan
  | .inf a, .fin .. => .inf a
  | .fin .., .inf b => .inf b
  | .fin s1 m1 e1, .fin s2 m2 e2 =>
    if m1 = 0 then (if m2 = 0 then .fin (if s1 = s2 then s1 else mode = 2) 0 0 else .fin s2 m2 e2)
    else if m2 = 0 then .fin s1 m1 e1
    else
      let q := min e1 e2
      let t := scaledInt s1 m1 e1 q + scaledInt s2 m2 e2 q
      if t = 0 then .fin (mode = 2) 0 0 else .fin (t < 0) t.natAbs q

/-- The exact product (R291). -/
def Number.mul : Number → Number → Number
  | .nan, _ => .nan
  | _, .nan => .nan
  | .inf a, .inf b => .inf (a != b)
  | .inf a, .fin b m _ => if m = 0 then .nan else .inf (a != b)
  | .fin a m _, .inf b => if m = 0 then .nan else .inf (a != b)
  | .fin a m1 e1, .fin b m2 e2 => .fin (a != b) (m1 * m2) (e1 + e2)

/-- a × 2^k (R302). -/
def Number.scale (k : Int) : Number → Number
  | .fin s m e => .fin s m (e + k)
  | x => x

/-- Order of two values that are not NaN; zeros are equal (R260). -/
def Number.lt : Number → Number → Bool
  | .nan, _ => false
  | _, .nan => false
  | .inf a, .inf b => a && !b
  | .inf a, .fin .. => a
  | .fin .., .inf b => !b
  | .fin s1 m1 e1, .fin s2 m2 e2 =>
    if m1 = 0 && m2 = 0 then false
    else if m1 = 0 then !s2
    else if m2 = 0 then s1
    else
      let q := min e1 e2
      scaledInt s1 m1 e1 q < scaledInt s2 m2 e2 q

def Number.eqv (a b : Number) : Bool := !a.isNan && !b.isNan && !Number.lt a b && !Number.lt b a

/-- The order of FMIN and FMAX: −0 is less than +0 (R292). -/
def Number.ltMin (a b : Number) : Bool :=
  match a, b with
  | .fin true 0 _, .fin false 0 _ => true
  | _, _ => Number.lt a b

/-- FMIN and FMAX on codes of one format (R292). -/
def FFmt.minCode (f : FFmt) (a b : Nat) : Nat :=
  let x := f.decode a
  let y := f.decode b
  if x.isNan then (if y.isNan then f.nan else b) else if y.isNan then a else if Number.ltMin y x then b else a
def FFmt.maxCode (f : FFmt) (a b : Nat) : Nat :=
  let x := f.decode a
  let y := f.decode b
  if x.isNan then (if y.isNan then f.nan else b) else if y.isNan then a else if Number.ltMin x y then b else a

/-- The NA bits on a code: the sign bit only (R261). -/
def FFmt.negAbs (f : FFmt) (neg abs : Bool) (code : Nat) : Nat :=
  let mag := code % 2 ^ (f.bits - 1)
  let s := code.testBit (f.bits - 1) && !abs
  f.withSign (s != neg) mag

/-- FRINT (R291). -/
def FFmt.toIntegral (f : FFmt) (mode : Nat) (code : Nat) : Nat :=
  match f.decode code with
  | .nan => f.nan
  | .inf s => f.withSign s (f.inf.getD f.nan)
  | .fin s m e =>
    if 0 ≤ e then f.withSign s (f.roundCode mode s m e)
    else f.withSign s (f.roundCode mode s (roundAt mode s m e 0) 0)

/-! ### Conversions -/

/-- The value of an element of a type (R52, R56); O4 is decoded from its byte. -/
def tyValue (t : ETy) (code : Nat) : Number :=
  match t with
  | .e8m0 => if code % 256 = 255 then .nan else .fin false 1 ((code % 256 : Nat) - 127 : Int)
  | .f32 | .f16 | .bf16 | .e4m3 | .e5m2 => (tyFmt t).decode code
  | _ => Number.ofInt (extTy t code)

/-- The magnitude of an outlier code (R63). -/
def o4Magnitude (h : Nat) : Int :=
  match h % 8 with
  | 0 => 8 | 1 => 12 | 2 => 16 | 3 => 24 | 4 => 32 | 5 => 48 | 6 => 64 | _ => 96

/-- The value of element 0 or 1 of an O4 byte, none for the ill-formed byte 0x88 (R63). -/
def o4Element (byte : Nat) (odd : Bool) : Option Int :=
  let lo := byte % 16
  let hi := byte / 16 % 16
  let outlier (h : Nat) : Int := if h.testBit 3 then -o4Magnitude h else o4Magnitude h
  if lo = 8 ∧ hi = 8 then none
  else if lo = 8 then some (if odd then 0 else outlier hi)
  else if hi = 8 then some (if odd then outlier lo else 0)
  else some (sext (if odd then hi else lo) 4)

/-- A conversion to E8M0 (R61), none on an overflow under policy 11. Minus infinity is a negative x before it is an infinity that
the format cannot hold: 0xFF under every policy, with no trap; and R61's rule for zeros and negative values is taken for an
integer source too, which R62 does not say (both DESIGN CHOICE, log 77; unsafe). -/
def cvtE8M0 (mode ovf : Nat) (x : Number) : Option Nat :=
  let beyond := if ovf = 0 then some 0xFE else if ovf = 3 then none else some 0xFF
  match x with
  | .nan => some 0xFF
  | .inf true => some 0xFF
  | .inf false => beyond
  | .fin true _ _ => some 0xFF
  | .fin false m e =>
    if m = 0 then some 0xFF
    else
      let l := Nat.log2 m
      let k : Int := e + l
      let up :=
        match mode with
        | 0 => 3 * 2 ^ l < 2 * m || (3 * 2 ^ l = 2 * m && (k + 127) % 2 != 0)
        | 3 => 2 ^ l < m
        | _ => false
      let k' : Int := if up then k + 1 else k
      if 127 < k' then beyond else some (k' + 127).toNat

/-- A conversion to a float format with a sign (R60, R62), none on an overflow under policy 11. -/
def cvtFloat (f : FFmt) (mode ovf : Nat) (x : Number) : Option Nat :=
  let beyond (s : Bool) : Option Nat :=
    match ovf with
    | 0 => some (f.withSign s f.maxFin)
    | 1 => some (match f.inf with | some i => f.withSign s i | none => f.nan)
    | 2 => some f.nan
    | _ => none
  match x with
  | .nan => some f.nan
  | .inf s => match f.inf with
    | some i => some (f.withSign s i)
    | none => beyond s
  | .fin s m e =>
    let c := f.roundCode mode s m e
    if c ≤ f.maxFin then some (f.withSign s c) else beyond s

/-- A conversion to an integer format (R60, R62), none on an overflow under policy 11. -/
def cvtInt (t : ETy) (mode ovf : Nat) (x : Number) : Option Nat :=
  let top : Nat := 2 ^ (t.bits - 1)
  match x with
  | .nan => match ovf with
    | 2 => some top
    | 3 => none
    | _ => some 0
  | .inf s => match ovf with
    | 0 => some (wrapInt t.bits (if s then tyLeast t else tyGreatest t))
    | 1 => some 0
    | 2 => some top
    | _ => none
  | .fin s m e =>
    -- far beyond any integer format the magnitude is replaced by one that is out of range with the same low bits
    let r : Int :=
      if e ≤ 128 then (let n : Int := roundAt mode s m e 0; if s then -n else n)
      else if m = 0 then 0 else if s then -(2 ^ 128) else 2 ^ 128
    if tyLeast t ≤ r ∧ r ≤ tyGreatest t then some (wrapInt t.bits r)
    else match ovf with
      | 0 => some (wrapInt t.bits (satInt t r))
      | 1 => some (wrapInt t.bits r)
      | 2 => some top
      | _ => none

/-- A value converted to a type under RND and OVF, none on an overflow under policy 11 (R59 to R62). -/
def cvtTo (t : ETy) (mode ovf : Nat) (x : Number) : Option Nat :=
  match t with
  | .e8m0 => cvtE8M0 mode ovf x
  | .f32 | .f16 | .bf16 | .e4m3 | .e5m2 => cvtFloat (tyFmt t) mode ovf x
  | _ => cvtInt t mode ovf x

/-! ### Binary32 helpers for the chapters that compute in FP32 -/

/-- RNE32 of an exact value (R8). -/
def rne32 (x : Number) : BitVec 32 := BitVec.ofNat 32 (fmtF32.round 0 x)
def f32val (x : BitVec 32) : Number := fmtF32.decode x.toNat
def fadd32 (mode : Nat) (a b : BitVec 32) : BitVec 32 :=
  BitVec.ofNat 32 (fmtF32.round mode (Number.add mode (f32val a) (f32val b)))
def fsub32 (mode : Nat) (a b : BitVec 32) : BitVec 32 :=
  BitVec.ofNat 32 (fmtF32.round mode (Number.add mode (f32val a) (f32val b).neg))
def fmul32 (mode : Nat) (a b : BitVec 32) : BitVec 32 :=
  BitVec.ofNat 32 (fmtF32.round mode (Number.mul (f32val a) (f32val b)))
def fmin32 (a b : BitVec 32) : BitVec 32 := BitVec.ofNat 32 (fmtF32.minCode a.toNat b.toNat)
def fmax32 (a b : BitVec 32) : BitVec 32 := BitVec.ofNat 32 (fmtF32.maxCode a.toNat b.toNat)
def flt32 (a b : BitVec 32) : Bool := Number.lt (f32val a) (f32val b)
def canonNan32 : BitVec 32 := 0x7FC00000
/-- A value passed through unchanged, but for a NaN (R71, R72). -/
def canon32 (a : BitVec 32) : BitVec 32 := if (f32val a).isNan then canonNan32 else a

end Sys2Proof.Machine
end

