-- ==== Sys2Proof/Machine/Operands.lean ====
section
/-!
DEFINITION. Operand forms: the value an operand supplies to a scalar instruction (R257), to a lane of a vector
instruction (R290), the base of an effective address (R312), and the writing of a lane's result (R34, R54).
-/

namespace Sys2Proof.Machine

/-- The immediate of an instruction with a type: SEXT for a signed or float type, ZEXT for an unsigned one (R257). -/
def immTyOf (o : Slot) : Word :=
  if o.ty.signed || o.ty.isFloat then o.imm.signExtend 64 else o.imm.setWidth 64

/-- An operand of a scalar instruction that has a type (R257). -/
def scalarTyOf (o : Slot) (r : Regs) (x : Opnd) : Word :=
  match x with
  | .s n => r.getS n.toNat
  | .imm _ => immTyOf o
  | _ => 0

/-- An operand of a scalar instruction without a type: an immediate is ZEXT(IMM, 32) (log 13). -/
def scalarOf (o : Slot) (r : Regs) (x : Opnd) : Word :=
  match x with
  | .s n => r.getS n.toNat
  | .imm _ => o.imm.setWidth 64
  | _ => 0

/-- The source a vector operand supplies to lane l for elements of a type (R290): 32 bits, or 64 for a 64-bit type. -/
def laneOf (o : Slot) (r : Regs) (x : Opnd) (t : ETy) (l : Nat) : Nat :=
  if t.bits = 64 then
    match x with
    | .v n => (r.getVV n.toNat l).toNat
    | .s n => (r.getS n.toNat).toNat
    | .imm _ => (if t.signed then o.imm.signExtend 64 else o.imm.setWidth 64 : Word).toNat
    | .x _ => 0
  else
    match x with
    | .v n => (r.getV n.toNat l).toNat
    | .s n => ((r.getS n.toNat).extractLsb' 0 32).toNat
    | .imm _ => o.imm.toNat
    | .x _ => 0

/-- Write lane l of a vector destination of a type (R54). -/
def Regs.setLane (r : Regs) (t : ETy) (dst : Opnd) (l : Nat) (x : Nat) : Regs :=
  if t.bits = 64 then r.setVV dst.num l (BitVec.ofNat 64 x) else r.setV dst.num l (BitVec.ofNat 32 x)

/-- Write every active lane of a destination: all sources are read from the registers before it (R34, R76, R290). -/
def Regs.mapLanes (r : Regs) (t : ETy) (dst : Opnd) (f : Nat → Nat) : Regs :=
  r.active.foldl (fun acc l => acc.setLane t dst l (f l)) r

/-- Write a scalar destination (R73). -/
def Regs.setDst (r : Regs) (dst : Opnd) (x : Word) : Regs := r.setS dst.num x

/-- BASE(l) of a global access: sN, or lane l of the pair vN:vN+1 (R312). -/
def baseGlobal (r : Regs) (a : Opnd) (l : Nat) : Word :=
  match a with
  | .s n => r.getS n.toNat
  | .v n => r.getVV n.toNat l
  | _ => 0

/-- BASE(l) of a scratchpad, loft or remote offset: sN, or ZEXT(lane l of vN, 32) (R312). -/
def baseOffset (r : Regs) (a : Opnd) (l : Nat) : Word :=
  match a with
  | .s n => r.getS n.toNat
  | .v n => (r.getV n.toNat l).setWidth 64
  | _ => 0

/-- The effective address (R312). -/
def eaGlobal (o : Slot) (r : Regs) (l : Nat) : Word := baseGlobal r o.a l + o.disp
def eaOffset (o : Slot) (r : Regs) (l : Nat) : Word := baseOffset r o.a l + o.disp
/-- The effective address of a whole-group instruction: sa + e (R311). -/
def eaScalar (o : Slot) (r : Regs) : Word := r.getS o.a.num + o.disp

/-- The panel stall number of a remote access: sC, or ZEXT(lane l of vC, 32) (R312). -/
def remoteStall (o : Slot) (r : Regs) (l : Nat) : Word :=
  match o.c with
  | .s n => r.getS n.toNat
  | .v n => (r.getV n.toNat l).setWidth 64
  | _ => 0

end Sys2Proof.Machine
end

