-- ==== Sys2Proof/Machine/Translate.lean ====
section
/-!
DEFINITION. Translation of global virtual addresses (R155 to R158, R161, R162), the checks of a lane's access in each
space (R88, R90, R93, R104, R164, R312), and the range-lock checks (R132, R172).
-/

namespace Sys2Proof.Machine

/-! ### Page-table entries (R156) -/

def pteV (e : Word) : Bool := e.getLsbD 0
def pteLeaf (e : Word) : Bool := e.getLsbD 1
def pteW (e : Word) : Bool := e.getLsbD 2
def pteX (e : Word) : Bool := e.getLsbD 3
def pteSup (e : Word) : Bool := e.getLsbD 4
def pteUc (e : Word) : Bool := e.getLsbD 5
def pteFor (e : Word) : Bool := e.getLsbD 6
def pteHome (e : Word) : Nat := (e.extractLsb' 52 9).toNat
/-- PA as a byte address: bits [51:12] in place. -/
def ptePa (e : Word) : Nat := (e.extractLsb' 12 40).toNat * 0x1000

/-- The must-be-zero fields every entry has. -/
def pteZeros (e : Word) : Bool := e.extractLsb' 7 5 = 0 && e.extractLsb' 61 3 = 0

/-- The HOME values that R161 assigns. -/
def homeAssigned (foreign : Bool) (h : Nat) : Bool :=
  if foreign then (1 ≤ h && h ≤ 4) || (0x10 ≤ h && h ≤ 0x3F) || h = 0x1FF else h ≤ 0x120

/-- A leaf entry follows R156 and R161. -/
def leafOk (e : Word) (large : Bool) : Bool :=
  pteZeros e && pteFor e = e.getLsbD 51 && (e.extractLsb' 12 4 = 0) && (!large || e.extractLsb' 12 13 = 0) &&
  homeAssigned (pteFor e) (pteHome e)

/-- A table entry follows R156; a root entry names a 512 KiB table. -/
def tableOk (e : Word) (root : Bool) : Bool :=
  pteZeros e && pteHome e = 0 && (!root || e.extractLsb' 12 7 = 0)

/-- One entry as the walker reads it: 8 coherent bytes, bypassing the L1 (R157). DESIGN CHOICE (log 67): the spec gives the
walker no check of the address it reads, so an address at or beyond the general-DRAM limit, or in foreign space, is read
as the memory that stands there, with no cause of its own. -/
def State.readEntry (s : State) (pa : Nat) : Word := BitVec.ofNat 64 (s.coherentN pa 8)

/-- Some byte of an entry that the walker reads is poisoned (R102). -/
def State.entryBad (s : State) (pa : Nat) : Bool := (List.range 8).any fun i => s.poisonAt (pa + i)

def translationFault (va : Word) (mal : Bool) : LaneFault :=
  { cause := .translation, addr := va, wr := false, mal := mal }

/-- The walk (R155, R157 steps 2 and 3): the leaf that maps an address. DESIGN CHOICE (log 67): the walk ends at the first
entry that is not valid or is malformed, so a malformed upper entry reports MAL = 1 whatever stands below it; a poisoned
entry ends it with POISON. -/
def State.walk (s : State) (va : Word) : Except LaneFault TlbEntry :=
  if !s.cfg.ptEn then .error (translationFault va false)
  else
    let a := va.toNat
    let p2 := s.cfg.ptRoot.toNat * 2 ^ 19 + 8 * (a / 2 ^ 41 % 2 ^ 16)
    let e2 := s.readEntry p2
    if s.entryBad p2 then .error (LaneFault.plain .poison va)
    else if !pteV e2 then .error (translationFault va false)
    else if pteLeaf e2 || !tableOk e2 true then .error (translationFault va true)
    else
      let p1 := ptePa e2 + 8 * (a / 2 ^ 25 % 2 ^ 16)
      let e1 := s.readEntry p1
      if s.entryBad p1 then .error (LaneFault.plain .poison va)
      else if !pteV e1 then .error (translationFault va false)
      else if pteLeaf e1 then
        if leafOk e1 true then .ok { vpn := a / 2 ^ 25, large := true, pte := e1 }
        else .error (translationFault va true)
      else if !tableOk e1 false then .error (translationFault va true)
      else
        let p0 := ptePa e1 + 8 * (a / 2 ^ 16 % 2 ^ 9)
        let e0 := s.readEntry p0
        if s.entryBad p0 then .error (LaneFault.plain .poison va)
        else if !pteV e0 then .error (translationFault va false)
        else if pteLeaf e0 && leafOk e0 false then .ok { vpn := a / 2 ^ 16, large := false, pte := e0 }
        else .error (translationFault va true)

/-- A TLB entry maps an address. -/
def TlbEntry.maps (t : TlbEntry) (a : Nat) : Bool := t.vpn = (if t.large then a / 2 ^ 25 else a / 2 ^ 16)

/-- The entry an access uses: micro-TLB, then stable TLB, then a walk (R158). -/
def State.lookup (s : State) (stall : Nat) (va : Word) : Except LaneFault TlbEntry :=
  if !s.cfg.ptEn then .error (translationFault va false)
  else
    match (s.stall stall).utlb.find? fun t => t.maps va.toNat with
    | some t => .ok t
    | none =>
      match (s.stable (stableOf stall)).tlb.find? fun t => t.maps va.toNat with
      | some t => .ok t
      | none => s.walk va

/-- Make an entry the most recently used of a TLB of n entries (R158, log 9). -/
def tlbTouch (n : Nat) (tlb : List TlbEntry) (t : TlbEntry) : List TlbEntry :=
  (t :: tlb.filter fun x => !(x.vpn = t.vpn && x.large = t.large)).take n

/-- The 64 KiB granule of panel DRAM that an entry maps has the home that the entry names (R99): the home by which its
lines are reached from now on. -/
def State.noteHome (s : State) (t : TlbEntry) (va : Word) : State :=
  if pteFor t.pte then s
  else
    let g := (ptePa t.pte + (if t.large then va.toNat % 2 ^ 25 else 0)) / 0x10000
    if kget 0 s.homes g = pteHome t.pte then s else s.moveHome g (pteHome t.pte)

/-- The addresses of the entries that a walk to a leaf reads (R157). -/
def State.walkPath (s : State) (va : Word) (t : TlbEntry) : List Nat :=
  let a := va.toNat
  let p2 := s.cfg.ptRoot.toNat * 2 ^ 19 + 8 * (a / 2 ^ 41 % 2 ^ 16)
  let p1 := ptePa (s.readEntry p2) + 8 * (a / 2 ^ 25 % 2 ^ 16)
  if t.large then [p2, p1] else [p2, p1, ptePa (s.readEntry p1) + 8 * (a / 2 ^ 16 % 2 ^ 9)]

/-- The fills that a translated access leaves (R158): a micro-TLB hit leaves the stable TLB as it is (log 9), a miss is counted
(R193). Where the stable TLB misses too, the walk has read its entries at their homes (R101, R157). -/
def State.touchTlb (s : State) (stall : Nat) (va : Word) : State :=
  match s.lookup stall va with
  | .error _ => s
  | .ok t =>
    let hit := (s.stall stall).utlb.any fun x => x.maps va.toNat
    let walked := !hit && !(s.stable (stableOf stall)).tlb.any fun x => x.maps va.toNat
    let s := if walked then (s.walkPath va t).foldl (fun s p => s.touchHome p) s else s
    let s := (s.noteHome t va).modStall stall fun st => { st with utlb := tlbTouch 32 st.utlb t }
    if hit then s
    else (s.tallied stall 7 1).modStable (stableOf stall) fun st => { st with tlb := tlbTouch 4096 st.tlb t }

/-- The kinds of global access that permissions tell apart (R157). -/
inductive Want where
  | read | write | fetch
  deriving DecidableEq, Repr

/-- A translated access: its location, whether its page is uncached, its page's HOME and write permission. -/
structure Phys where
  loc : Nat
  uncached : Bool
  pte : Word
  deriving DecidableEq, Repr

/-- The physical address an entry gives an address. -/
def TlbEntry.pa (t : TlbEntry) (a : Nat) : Nat := ptePa t.pte + (if t.large then a % 2 ^ 25 else a % 2 ^ 16)

/-- Step 5 of R157: the address lies in general DRAM, at an enabled link, or in the constant page read-only. -/
def State.physOk (s : State) (t : TlbEntry) (pa n : Nat) (w : Want) : Bool :=
  let h := pteHome t.pte
  if pteFor t.pte then
    let const := pa % 2 ^ 51 / 0x10000 = 0
    if h = 0x1FF then const && w != .write
    else !const && (h ≤ 4 || (s.link (h - 0x10)).en)
  else pa + n ≤ s.dramLimit

/-- R157: the location of an n-byte access, or its lane's cause. The privilege is that of the accessor. -/
def State.translate (s : State) (stall : Nat) (sup : Bool) (va : Word) (n : Nat) (w : Want) : Except LaneFault Phys :=
  let wr := w = .write
  if va.toNat / 2 ^ 57 ≠ 0 then .error { cause := .permission, addr := va, wr := wr, mal := false }
  else
    match s.lookup stall va with
    | .error f => .error { f with wr := wr }
    | .ok t =>
      let e := t.pte
      let pa := t.pa va.toNat
      let denied := (w = .write && !pteW e) || (w = .fetch && !pteX e) || (!sup && pteSup e)
      if denied || !s.physOk t pa n w then .error { cause := .permission, addr := va, wr := wr, mal := false }
      else .ok { loc := if pteFor e then foreignLoc (pteHome e) pa else pa, uncached := pteUc e, pte := e }

/-! ### Range locks (R132) -/

/-- Two intervals share a byte. -/
def overlaps (a n b m : Nat) : Bool := a < b + m && b < a + n && 0 < n && 0 < m

/-- A thread access to an interval of one space meets a lock: a write meets any range, a read a destination. -/
def Stall.locked (st : Stall) (glb : Bool) (base n : Nat) (write : Bool) : Bool :=
  st.locks.any fun l => l.glb = glb && (write || l.dst) && overlaps l.base l.len base n

/-! ### One lane's access -/

/-- Prefer the lower cause when an access meets several (R213). -/
def firstCause (xs : List (Bool × LaneFault)) : Except LaneFault Unit :=
  match (xs.filter Prod.fst).map Prod.snd with
  | [] => .ok ()
  | f :: fs => .error (fs.foldl (fun b x => if x.cause.code < b.cause.code then x else b) f)

/-- A global access by a thread (R88, R157, R132, R312): translation first, then the lowest of its remaining causes. -/
def State.checkGlobal (s : State) (stall : Nat) (sup : Bool) (va : Word) (n : Nat) (w : Want) :
    Except LaneFault Phys := do
  let p ← s.translate stall sup va n w
  firstCause
    [((s.stall stall).locked true va.toNat n (w = .write), LaneFault.plain .rangeLocked va),
     (va.toNat % n ≠ 0, { cause := .misaligned, addr := va, wr := w = .write, mal := false }),
     (if w = .read then s.readPoison stall p.loc n p.uncached else s.unreachable p.loc, LaneFault.plain .poison va)]
  pure p

/-! ### Scratchpad bytes -/

/-- The key under which the poison of a scratchpad byte is listed, beyond every location (R102, R324). -/
def scrKey (stall off : Nat) : Nat := 2 ^ 62 + stall * 2 ^ 18 + off
def State.scrPoisoned (s : State) (stall off n : Nat) : Bool :=
  (List.range n).any fun i => kget false s.poison (scrKey stall (off + i))

/-- The own-scratchpad form of TADDR: bit [63] is 0 (R212). -/
def ownForm (a : Word) : Word := a &&& 0x7FFFFFFFFFFFFFFF

/-- What a thread's scratchpad access does: an atomic reads what it writes (R102, R132). -/
inductive Touch where
  | read | write | update
  deriving DecidableEq, Repr

/-- An own-scratchpad access by a thread (R88, R90, R102, R132, R312): the stall offset. -/
def State.checkOwn (s : State) (gang stall : Nat) (a : Word) (n : Nat) (t : Touch) : Except LaneFault Nat := do
  let g := s.gang gang
  if g.scrsize < a.toNat + n then .error (LaneFault.plain .scrBounds (ownForm a))
  else
    firstCause
      [((s.stall stall).locked false (g.scrbase + a.toNat) n (t != .read), LaneFault.plain .rangeLocked a),
       (a.toNat % n ≠ 0, LaneFault.plain .misaligned a),
       (t != .write && s.scrPoisoned stall (g.scrbase + a.toNat) n, LaneFault.plain .poison a)]
    pure (g.scrbase + a.toNat)

/-- A structure in the gang's scratchpad (engine descriptors, objects): bounds, then alignment (R88). -/
def State.ownStruct (s : State) (gang : Nat) (a : Word) (n align : Nat) : Except LaneFault Nat :=
  let g := s.gang gang
  if g.scrsize < a.toNat + n then .error (LaneFault.plain .scrBounds (ownForm a))
  else if a.toNat % align ≠ 0 then .error (LaneFault.plain .misaligned a)
  else .ok (g.scrbase + a.toNat)

/-- The same where a thread's own access reads or writes the structure: its range locks and its poison count too (R102, R132,
R213). -/
def State.ownRecord (s : State) (gang stall : Nat) (a : Word) (n align : Nat) (t : Touch) : Except LaneFault Nat := do
  let off ← s.ownStruct gang a n 1
  firstCause
    [((s.stall stall).locked false off n (t != .read), LaneFault.plain .rangeLocked a),
     (a.toNat % align ≠ 0, LaneFault.plain .misaligned a),
     (t != .write && s.scrPoisoned stall off n, LaneFault.plain .poison a)]
  pure off

/-- The remote scratchpad form of TADDR (R212). -/
def remoteForm (stall off : Word) : Word :=
  (off.extractLsb' 0 18).setWidth 64 ||| ((stall.extractLsb' 0 17).setWidth 64 <<< 32) ||| (1#64 <<< 63)

/-- The gangs of a launch resident on a logical stall, in order of placement (R93). DESIGN CHOICE (log 81): the spec does not
say whether a gang that is imaged out is resident, and the model takes it as not; a gang that has lost its stall or is being
restored counts as resident where its allocation will stand, and an access that reaches it there meets what the stall holds. -/
def State.residents (s : State) (lid : BitVec 32) (stall : Nat) : List (Nat × Gang) :=
  s.gangs.filter fun p => lidOf p.1 = lid && p.2.stall = stall && p.2.phase != .imaged

/-- The receive ranges of a gang as stall intervals (R29, R30). -/
def State.receiveRanges (s : State) (gang : Nat) : List (Nat × Nat) :=
  (s.launch (lidOf gang)).roles.flatMap fun r =>
    r.rranges.map fun x => ((s.gang gang).scrbase + x.off, x.len)

/-- A remote address names a stall that exists and is present, and offsets inside its scratchpad (R93). -/
def State.remoteNamed (s : State) (stall off : Word) (n : Nat) : Bool :=
  stall.toNat < 103680 && off.toNat + n ≤ 262144 &&
  !((s.spare stall.toNat).absent && !(s.spare stall.toNat).hosted)

/-- The gang whose allocation holds a remote read (R93). -/
def State.remoteReadGang (s : State) (lid : BitVec 32) (stall off : Word) (n : Nat) : Option Nat :=
  if !s.remoteNamed stall off n then none
  else
    ((s.residents lid stall.toNat).find? fun p =>
      p.2.scrbase ≤ off.toNat && off.toNat + n ≤ p.2.scrbase + p.2.scrsize).map Prod.fst

/-- The gang whose receive range holds a remote write or atomic (R93). -/
def State.remoteWriteGang (s : State) (lid : BitVec 32) (stall off : Word) (n : Nat) : Option Nat :=
  if !s.remoteNamed stall off n then none
  else
    ((s.residents lid stall.toNat).find? fun p =>
      (s.receiveRanges p.1).any fun r => r.1 ≤ off.toNat && off.toNat + n ≤ r.1 + r.2).map Prod.fst

/-- Read n bytes of a stall's scratchpad as a number. -/
def State.scr (s : State) (stall off n : Nat) : Nat := leValue ((s.stall stall).scratch.readN off n)

/-- Write scratchpad bytes without touching the zero map: the baler's own writes and PLZ (R95). Rewriting ends poison. -/
def State.scrPut (s : State) (stall off : Nat) (bs : List Byte) : State :=
  let s := s.modStall stall fun st => { st with scratch := st.scratch.writeN off bs }
  if s.poison.isEmpty then s
  else { s with poison := (List.range bs.length).foldl (fun p i => kset false p (scrKey stall (off + i)) false) s.poison }

/-- Write scratchpad bytes; any agent but the baler and PLZ clears the zero-map bits of the words it writes (R95). -/
def State.scrWrite (s : State) (stall off : Nat) (bs : List Byte) : State :=
  (s.scrPut stall off bs).modStall stall fun st =>
    { st with zmap := (List.range bs.length).foldl (fun z i => kset false z ((off + i) / 32) false) st.zmap }
def State.scrWriteN (s : State) (stall off n x : Nat) : State := s.scrWrite stall off (leBytes n x)

/-- Mark a scratchpad byte poisoned. -/
def State.scrMark (s : State) (stall off : Nat) : State :=
  { s with poison := kset false s.poison (scrKey stall off) true }

end Sys2Proof.Machine
end

