-- ==== Sys2Proof/Machine/Pending.lean ====
section
/-!
DEFINITION. The bytes that groups have stored in global memory and not yet seen granted (R123), and their grant at the home
(R118, R121, R124): the words of one naturally aligned store of 8 bytes are granted together.
-/

namespace Sys2Proof.Machine

/-! ### What is pending -/

/-- The bytes a store operation still waits to see granted. -/
def Op.pendingCells (o : Op) : List Host.Cell :=
  match o.kind with
  | .store p q => p ++ q
  | _ => []

/-- The latest of a group's own bytes at a location that are not yet granted. -/
def Group.ownByte? (g : Group) (loc : Nat) : Option Byte :=
  g.ops.foldl (fun b o => match kfind o.pendingCells loc with | some x => some x | none => b) none

/-- Every registration of the group's earlier stores has been granted (R126, R286, R322). -/
def Group.storesGranted (g : Group) : Bool :=
  g.ops.all fun o => match o.kind with | .store p q => p.isEmpty && q.isEmpty | _ => true

/-- Some access of the group numbered below n has not been performed (R131). -/
def Group.behind (g : Group) (n : Nat) : Bool :=
  g.ops.any fun o => o.seq < n && ((o.kind = .load && !o.performed) || !o.pendingCells.isEmpty)

/-- An interval of locations shares a 4-byte word with pending cells. -/
def touchesWords (cells : List Host.Cell) (loc n : Nat) : Bool :=
  cells.any fun c => loc / 4 ≤ c.1 / 4 && c.1 / 4 ≤ (loc + n - 1) / 4

def Group.pendingAt (g : Group) (loc n : Nat) : Bool := g.ops.any fun o => touchesWords o.pendingCells loc n

/-- The stall that runs a group. -/
def State.stallOf (s : State) (grp : Nat) : Nat := s.hostOf (s.gang (gangOf grp)).stall

/-- Some other group of the issuing group's stall has a word of the interval pending (R123). -/
def State.pendingByOther (s : State) (loc n : Nat) : Bool :=
  s.groups.any fun p => p.1 ≠ s.cur && s.stallOf p.1 = s.here && p.2.pendingAt loc n

/-- A coherent location as the issuing group sees it: its own pending bytes foremost (R120, R123). -/
def State.seenN (s : State) (loc n : Nat) : Nat :=
  leValue ((List.range n).map fun i => (s.me.ownByte? (loc + i)).getD (s.coherent (loc + i)))

/-! ### Grants -/

def inWord (word : Nat) (c : Host.Cell) : Bool := c.1 / 4 = word

/-- The words that a store operation's grant of a word takes in: both words of a store of 8 bytes (R118, R121). -/
def Op.block (o : Op) (word : Nat) : List Nat :=
  if o.accs.any fun a => a.bytes = 8 && a.loc / 8 = word / 2 then [word / 2 * 2, word / 2 * 2 + 1] else [word]

/-- The earliest store operation of a stall's groups that waits for a word: its group, its place there, itself. -/
def State.wordWaiter (s : State) (stall word : Nat) : Option (Nat × Nat × Op) :=
  let all := s.groups.flatMap fun p =>
    if s.stallOf p.1 = stall then
      ((List.range p.2.ops.length).zip p.2.ops).filterMap fun q =>
        if q.2.pendingCells.any (inWord word) then some (p.1, q.1, q.2) else none
    else []
  match all with
  | [] => none
  | x :: xs => some (xs.foldl (fun b y => if y.2.2.seq < b.2.2.seq then y else b) x)

/-- Grant the words of a store operation that one of its words takes in (R118, R123): the bytes of an uncached page are
written at their home. -/
def State.grantOp (s : State) (stall word grp idx : Nat) (o : Op) : State :=
  match o.kind with
  | .store p q =>
    let ws := o.block word
    let mine := fun (c : Host.Cell) => ws.any fun w => inWord w c
    let owned := ws.filter fun w => p.any (inWord w)
    let s := owned.foldl (fun s w => s.grantWord stall w (p.filter (inWord w))) s
    let s := (q.filter mine).foldl (fun s c => s.writeFrom stall c.1 [c.2]) s
    let o' := { o with kind := .store (p.filter fun c => !mine c) (q.filter fun c => !mine c) }
    s.modGroup grp fun g => { g with ops := g.ops.set idx o', wrote := g.wrote ++ owned }
  | _ => s

/-- The store that a grant of a word serves: the earliest that waits for it, once no earlier one waits for a word that its
grant takes in. -/
def State.nextGrant (s : State) (stall word : Nat) : Option (Nat × Nat × Op) :=
  match s.wordWaiter stall word with
  | none => none
  | some x =>
    if (x.2.2.block word).all fun w => (s.wordWaiter stall w).all fun y => x.2.2.seq ≤ y.2.2.seq then some x else none

/-- Grant what waits for some words of a stall, the earliest store first; n bounds the grants. -/
def State.settleWords (stall : Nat) (words : List Nat) : Nat → State → State
  | 0, s => s
  | n + 1, s =>
    match words.findSome? fun w => (s.nextGrant stall w).map fun x => (w, x) with
    | none => s
    | some (w, grp, idx, o) => State.settleWords stall words n (s.grantOp stall w grp idx o)

/-- The words of the 8-byte blocks that an interval touches. -/
def blockWords (loc n : Nat) : List Nat := (List.range (2 * ((loc + n + 7) / 8 - loc / 8))).map (2 * (loc / 8) + ·)

/-- Every store of a stall's groups that waits for a word of an interval is granted, in order (R119, R123). -/
def State.settleAt (s : State) (stall loc n : Nat) : State :=
  let words := blockWords loc n
  State.settleWords stall words
    (s.groups.map fun p => (p.2.ops.map fun o => (o.pendingCells.filter fun c => words.contains (c.1 / 4)).length).sum).sum s

/-- What a completed release leaves at home: every word that the group's stores have written (R125, R126, log 21). -/
def State.mergeGroup (s : State) (grp : Nat) : State :=
  ((s.group grp).wrote.foldl (fun s w => s.mergeWord (s.stallOf grp) w) s).modGroup grp fun g => { g with wrote := [] }

/-- Every registration of a group's stores is granted, as a release does it (R126, R128). -/
def State.grantAll (s : State) (grp : Nat) : State :=
  let cells := (s.group grp).ops.flatMap Op.pendingCells
  let words := (cells.flatMap fun c => [c.1 / 8 * 2, c.1 / 8 * 2 + 1]).eraseDups
  let n := (s.groups.map fun p => (p.2.ops.map fun o => o.pendingCells.length).sum).sum
  (State.settleWords (s.stallOf grp) words n s).mergeGroup grp

end Sys2Proof.Machine
end

