-- ==== Sys2Proof/Machine/Gangs.lean ====
section
/-!
DEFINITION. What outlives one instruction: the event ring (R218), MSI-X (R242), task records and promises (R150, R174,
R175), the ending of tasks and gangs (R219, R220), and the stall that holds a group.
-/

namespace Sys2Proof.Machine

/-! ### Events and messages -/

/-- Send an MSI-X message on a port (R242). -/
def State.msix (s : State) (p : Nat) (vector : Nat) : State :=
  s.setPort p { s.port p with msix := (s.port p).msix ++ [vector] }

/-- The number of events in the ring (R218). -/
def State.evCount (s : State) : Nat := (s.evTail - s.evHead).toNat

/-- Enter an event with the next SEQ; the owner is told when the ring was empty (R218, R242). -/
def State.enterEvent (s : State) (e : Event) : State :=
  let wasEmpty := s.evCount = 0
  let s := { s with
    evRing := kset Event.none s.evRing s.evTail.toNat { e with seq := s.evSeq }
    evTail := s.evTail + 1
    evSeq := s.evSeq + 1 }
  if wasEmpty && s.own.owned then s.msix s.own.owner.toNat 0 else s

/-- Append an event: with the ring full, kind 1 waits and any other kind is dropped (R218). -/
def State.appendEvent (s : State) (e : Event) : State :=
  if s.evCount < 255 then s.enterEvent e
  else if e.kind = 1 then { s with evWaiting := s.evWaiting ++ [e] }
  else { s with evLost := true }

/-- The key of the group that an event names. -/
def Event.group? (e : Event) : Nat := groupKey (gangKey e.launch e.gang.toNat) e.group.toNat

/-- An event of a kind about a group of a gang (R218). -/
def State.eventOf (s : State) (kind : BitVec 8) (cause : Nat) (addr : Word) (grp : Nat) (task : Word) : Event :=
  let gk := gangOf grp
  { kind := kind, cause := BitVec.ofNat 8 cause, seq := 0, launch := lidOf gk, addr := addr,
    stall := BitVec.ofNat 17 (s.gang gk).stall, group := BitVec.ofNat 4 (numberOf grp), wr := false, fetch := false,
    mal := false, gang := BitVec.ofNat 32 (linOf gk), task := task }

/-! ### Task records (R174) -/

/-- The location of a panel-written structure at a virtual address, with supervisor privilege. -/
def State.structLoc (s : State) (stall : Nat) (va : Word) (n : Nat) (w : Want := .read) : Option Nat :=
  match s.translate stall true va n w with
  | .ok p => some p.loc
  | .error _ => none

/-- Word i (8 bytes) of the structure at a location. -/
def State.wordAt (s : State) (loc i : Nat) : Word := BitVec.ofNat 64 (s.coherentN (loc + 8 * i) 8)
/-- Written at its home; the issuing group's stall reads it again from there (R120). -/
def State.setWordAt (s : State) (loc i : Nat) (x : Word) : State := s.writeFrom s.here (loc + 8 * i) (leBytes 8 x.toNat)

/-- STATE of a record's word 3. -/
def recState (w3 : Word) : Nat := (w3.extractLsb' 0 3).toNat
def recVneed (w3 : Word) : Nat := (w3.extractLsb' 16 8).toNat
def recLaunch (w3 : Word) : BitVec 32 := w3.extractLsb' 32 32

/-- A record is well formed: no reserved STATE, no nonzero zero field (R174). -/
def State.recordOk (s : State) (loc : Nat) : Bool :=
  let w3 := s.wordAt loc 3
  let w4 := s.wordAt loc 4
  let w10 := s.wordAt loc 10
  recState w3 ≤ 4 && w3.extractLsb' 3 5 = 0 && w3.extractLsb' 24 8 = 0 && w4.extractLsb' 19 45 = 0 &&
  w10.extractLsb' 0 16 = 0 && w10.extractLsb' 37 27 = 0 &&
  (List.range 5).all (fun i => s.wordAt loc (11 + i) = 0)

/-- Replace STATE and CAUSE of a record (R175). -/
def State.setRecord (s : State) (loc : Nat) (state cause : Nat) : State :=
  let w3 := s.wordAt loc 3
  let w3 := (w3 &&& ~~~0xFF07#64) ||| BitVec.ofNat 64 (state + cause % 256 * 256)
  s.setWordAt loc 3 w3

/-- A queue header follows R147 and R148: CAP a power of two in its range, zero fields zero, TAIL − HEAD within CAP. -/
def State.queueOk (s : State) (q : Nat) : Bool :=
  let w0 := s.wordAt q 0
  let cap := (w0.extractLsb' 0 32).toNat
  let used := s.wordAt q 2 - s.wordAt q 1
  w0.extractLsb' 32 32 = 0 && 4 ≤ cap && cap ≤ 65536 && cap &&& (cap - 1) = 0 && used.toNat ≤ cap &&
  (s.wordAt q 3).extractLsb' 4 60 = 0 && (List.range 4).all fun i => s.wordAt q (4 + i) = 0

/-- The address of entry i of a task queue: ordinary slots first, then the reserved slots (R147). -/
def queueEntry (q : Word) (i : Nat) : Word := q + BitVec.ofNat 64 (64 + 16 * i)
/-- Its location, with supervisor privilege. -/
def State.entryLoc (s : State) (stall : Nat) (q : Word) (i : Nat) : Option Nat :=
  s.structLoc stall (queueEntry q i) 16 .write

/-- A malformed entry: its zero field is not zero (R147, R148). -/
def State.entryOk (s : State) (e : Nat) : Bool := (s.wordAt e 1).extractLsb' 2 4 = 0

/-- An unfilled promise of a task becomes a faulted entry, and its record's PPOS all ones (R150). DESIGN CHOICE (log 68): a
queue that does not translate, or that R148 finds malformed, is left as it is; the task has ended, and no lane is left to
take a cause. -/
def State.breakPromise (s : State) (stall : Nat) (rec : Nat) (task : Word) : State :=
  let outq := s.wordAt rec 5
  let ppos := s.wordAt rec 6
  if outq = 0 || ppos = BitVec.allOnes 64 then s
  else
    match s.structLoc stall outq 64 with
    | none => s
    | some q =>
      let cap := (s.wordAt q 0).extractLsb' 0 32
      match s.entryLoc stall outq (ppos.toNat % max 1 cap.toNat) with
      | none => s
      | some e =>
        let w1 := s.wordAt e 1
        let ok := s.queueOk q && s.entryOk e
        let s := s.setWordAt rec 6 (BitVec.allOnes 64)
        if ok && w1.extractLsb' 0 2 = 1 && (w1.extractLsb' 6 58).setWidth 64 = task >>> 6 then
          s.setWordAt e 1 ((w1 &&& ~~~3#64) ||| 3#64)
        else s

/-- The reservation of a task's bytes is released, in the gang that runs it or that it was parked in (R384). -/
def State.releaseTask (s : State) (task : Word) : State :=
  { s with gangs := s.gangs.map fun p => (p.1, { p.2 with reserved := p.2.reserved.filter fun q => q.1 != task }) }

/-- The record's own wait has ended: WAITON and WAITT are zero (R176). -/
def State.endAwait (s : State) (rec : Nat) : State :=
  if s.wordAt rec 7 = 0 && s.wordAt rec 8 = 0 then s else (s.setWordAt rec 7 0).setWordAt rec 8 0

/-- A task's record takes its final state unless it is already done (R175, R220, R387); its promise is broken and its
reservation of the task area is released (R384). The task's completion is a release: its stores come first (R114, R135). -/
def State.closeTask (s : State) (grp : Nat) (task : Word) (state cause : Nat) : State :=
  let stall := s.stallOf grp
  let s := (s.grantAll grp).releaseTask task
  match s.structLoc stall task 128 with
  | none => s
  | some rec =>
    let s := if recState (s.wordAt rec 3) = 1 || recState (s.wordAt rec 3) = 2 then s.setRecord rec state cause else s
    (s.endAwait rec).breakPromise stall rec task

/-! ### Items (R38, R219) -/

/-- Take a gang's items out of a stall's queue, spill area and bins. -/
def Stall.dropItems (st : Stall) (gang : Nat) : Stall :=
  { st with
    itemq := st.itemq.filter fun i => i.gang != gang
    spill := st.spill.filter fun i => i.gang != gang
    bins := st.bins.filter fun b => b.2.gang != gang }

/-! ### Errands -/

/-- An operation that holds its group at its own instruction: it is on its way to another party, or its answer is not
yet taken (R93, R319, R322, R395). -/
def OpKind.errand : OpKind → Bool
  | .remote .. => true
  | .arrive .. => true
  | .claim .. => true
  | .volinv .. => true
  | .tlbinv .. => true
  | .call => true
  | .answered => true
  | .replied => true
  | .refused .. => true
  | _ => false

/-- Replace the errand of a group. -/
def Group.setErrand (g : Group) (f : Op → Op) : Group :=
  { g with ops := g.ops.map fun o => if o.kind.errand then f o else o }

/-! ### Ending (R219, R220) -/

/-- Discard what a group has staged and not credited. -/
def Group.discardStaged (g : Group) : Group :=
  { g with deliveries := [], tasks := [], st := g.st - (g.ops.filter fun o => o.kind = .remoteStore).length,
           ops := g.ops.filter fun o => o.kind != .remoteStore }

/-- The number of a gang's groups, present or past, in the list. -/
def State.groupsOf (s : State) (gang : Nat) : List Nat :=
  (kkeys s.groups).filter fun k => gangOf k = gang && !isCallable k

/-- No group of the gang is left running (R39). -/
def State.noGroup (s : State) (gang : Nat) : Bool := (s.groupsOf gang).all fun k => (s.group k).standing = .exited

/-- With no group of its gang left, a bin that holds items has become ready, and takes no more (R39, R145). -/
def State.readyBins (s : State) (gang : Nat) : State :=
  if s.noGroup gang then
    s.modStall (s.hostOf (s.gang gang).stall) fun st =>
      { st with bins := st.bins.map fun b => (b.1, if b.2.gang = gang && !b.2.items.isEmpty then { b.2 with ready := true } else b.2) }
  else s

def Standing.isParked : Standing → Bool
  | .parked _ => true
  | _ => false

/-- The slot's debug control once the group that held it has ended: the halt, the step and the resumption were that group's, and
the attachment stays (R232). -/
def DbgCtl.vacated (d : DbgCtl) : DbgCtl := { d with step := false, run := false, halted := false, atBrk := false }

/-- Take a group out of its stall's issue order and of its slot; a park is counted (R193). -/
def State.leaveSlot (s : State) (grp : Nat) (st : Standing) : State :=
  let g := s.group grp
  let s := s.modStall (s.stallOf grp) fun x =>
    let x := { x with ages := x.ages.filter (· != grp), wakes := x.wakes.filter (· != grp) }
    if st.isParked then x.tallied 12 1 else x
  let s := if st = .exited && g.standing = .slot then
      s.modStall (s.gang (gangOf grp)).stall fun x =>
        { x with dbg := kset DbgCtl.off x.dbg g.slot (kget DbgCtl.off x.dbg g.slot).vacated }
    else s
  let s := s.modGroup grp fun g => { g with standing := st, blocked := none, streak := 0 }
  if st = .exited then s.readyBins (gangOf grp) else s

/-- The wait of WAKE code 5 has been ended by an UNLOCK (R389). -/
def Standing.unlocked : Standing → Standing
  | .parked (.lock a w _) => .parked (.lock a w true)
  | st => st

/-- A parked group waits for a lock whose word is at a location. -/
def State.waitsForLock (s : State) (grp loc : Nat) : Bool :=
  match (s.group grp).standing with
  | .parked (.lock a _ _) => s.structLoc (s.stallOf grp) a 8 == some loc
  | _ => false

/-- Every waiter of WAKE code 5 on a lock's word is woken (R389): its wait has ended, whoever takes the lock next. -/
def State.wakeLock (s : State) (loc : Nat) : State :=
  { s with groups := s.groups.map fun p =>
      if s.waitsForLock p.1 loc then (p.1, { p.2 with standing := p.2.standing.unlocked }) else p }

/-- A lock word that equals a group's identity is freed, as by UNLOCK (R219, R389). -/
def State.freeLock (s : State) (stall : Nat) (id : Word) (a : Word) : State :=
  match s.structLoc stall a 8 .write with
  | none => s
  | some loc => if s.wordAt loc 0 = id then (s.setWordAt loc 0 0).wakeLock loc else s

/-- The identity a group writes into a lock (R388). -/
def Regs.lockId (r : Regs) : Word := r.taskId ||| 1#64

/-- Every task a group runs, at its present depth and in its frames, each with its own launch (R49, R219). -/
def Group.tasksOf (g : Group) : List (Word × BitVec 32) :=
  ((g.r.taskId, g.r.launchId) :: g.frames.map fun f => (f.regs.taskId, f.regs.launchId)).filter fun t => t.1 != 0

/-- The return of a group's claim on a task, as one step at the record's home (R386): the fields the claim wrote, and the
reservation it made. -/
def State.undoClaim (s : State) (grp : Nat) : State :=
  match (s.group grp).claim with
  | none => s
  | some (task, st, w10, new) =>
    let s := s.modGroup grp fun g => { g with claim := none, heldReply := none, incomplete := none }
    let s := if new = 0 then s
      else s.modGang (gangOf grp) fun g => { g with reserved := g.reserved.filter fun p => p.1 != task }
    match s.structLoc (s.stallOf grp) task 128 with
    | none => s
    | some rec => (s.setRecord rec st 0).setWordAt rec 10 w10

/-- The event of a task that a fault has ended, reported against the task's own launch (R49, R220). -/
def State.taskEvent (s : State) (cause : Nat) (addr : Word) (grp : Nat) (t : Word × BitVec 32) : Event :=
  { s.eventOf 3 cause addr grp t.1 with launch := t.2 }

/-- Stop one group of an ending gang: its staged work is discarded, and what it was about ends where it stands (R219 steps 1
and 2). DESIGN CHOICE (log 80): deliveries whose boundary has passed its credit check and whose section is still on its way to
the partner barn are not yet credited, and are discarded with the rest. -/
def Group.stopped (g : Group) : Group :=
  { g.discardStaged with stage42 := .none, blocked := none, probing := false, waitSince := none, deny := none }

/-- End one group of an ending gang whose engine operations have run to completion: its tasks are ended with the gang's
cause, its locks are freed (R219 step 4). -/
def State.endGroup (s : State) (cause : Nat) (grp : Nat) : State :=
  let g := s.group grp
  let s := s.grantAll grp
  let s := g.tasksOf.foldl (fun s t => s.closeTask grp t.1 4 cause) s
  let s := g.tasksOf.foldl (fun s t => s.appendEvent (s.taskEvent cause g.r.tpc grp t)) s
  let s := g.locks.foldl (fun s p => s.freeLock (s.stallOf grp) p.2 p.1) s
  let s := s.modGroup grp fun g => { g with locks := [] }
  s.leaveSlot grp .exited

/-- A TCALL of a group of the gang. -/
def CallReq.ofGang (q : CallReq) (gang : Nat) : Bool := q.who = .group && q.gang = gang

/-- Take the callable runs of a gang's groups out of a stall: its groups have stopped (R219, R367). -/
def State.dropCalls (s : State) (stall gang : Nat) : State :=
  let st := s.stall stall
  let s := s.setStall stall { st with calls := st.calls.filter fun q => !q.ofGang gang }
  if st.calling.any fun q => q.ofGang gang then
    { s.modStall stall (fun st => { st with calling := none }) with groups := kerase s.groups (callableKey gang) }
  else s

/-- The groups of an ending gang, once its engine operations have run to completion (R219 step 4). -/
def State.endGroups (s : State) (gang : Nat) : State :=
  let cause := match (s.gang gang).ended with | some e => e.cause.toNat | none => 0
  (s.groupsOf gang).foldl (fun s k => if (s.group k).standing = .exited then s else s.endGroup cause k) s

/-- The gang's groups may issue: it stands on its stall (R204, R222). -/
def Gang.live (g : Gang) : Bool := g.phase = .running || g.phase = .replay

/-- End a gang (R219): its groups stop, what they staged and its items are discarded. Its retirement waits for its engine
operations; then its tasks end with the cause, it retires, and the event of kind 2 is appended. The time that a gang has spent
imaged out or lost is no cycle of its charge (R197). -/
def State.endGang (s : State) (gang : Nat) (cause : Nat) (tpc : Word) (grp : Nat) : State :=
  let task := (s.group grp).r.taskId
  let s := (s.groupsOf gang).foldl
    (fun s k => if (s.group k).standing = .exited then s else (s.undoClaim k).modGroup k Group.stopped) s
  let own := (s.gang gang).stall
  let stall := s.hostOf own
  let s := ((s.modStall own fun st => st.dropItems gang).modStall stall fun st => st.dropItems gang).dropCalls stall gang
  let e := s.eventOf 2 cause tpc grp task
  s.modGang gang fun g =>
    { g with phase := .ending, ended := some e, runReqs := [], placedAt := if g.live then g.placedAt else s.ptime }

/-- A task ended by a fault (R220): its record, its promise, its staged work, the event of kind 3. An adopted task's
group goes to the adoption exit; a group that ran the task by itself ends as if by EXIT without EXIT's boundary. -/
def State.endTask (s : State) (grp : Nat) (cause : Nat) (tpc : Word) : State :=
  let g := s.group grp
  let s := s.closeTask grp g.r.taskId 4 cause
  let s := s.modGroup grp fun g => { g.discardStaged with incomplete := none }
  let s := s.appendEvent (s.taskEvent cause tpc grp (g.r.taskId, g.r.launchId))
  if g.r.depth = 0 then s.leaveSlot grp .exited
  else s.modGroup grp fun g => { g with stage42 := .leaving }

end Sys2Proof.Machine
end

