-- ==== Sys2Proof/Machine/Loft.lean ====
section
/-!
DEFINITION. The loft (R88, R104, R164): its domains and their copies, the copy that serves a stable, the poison of its
cells (R102, R231), and a lane's checked read.
-/

namespace Sys2Proof.Machine

/-! ### Domains (R104) -/

/-- The side k of a loft domain by KCODE (R163). -/
def domainSide : Nat → Option Nat
  | 0 => some 2 | 1 => some 4 | 2 => some 6 | 3 => some 8 | 4 => some 12 | 5 => some 24 | _ => none

/-- The side of the domains in use. -/
def State.loftSide (s : State) : Nat := (domainSide s.cfg.kcode.toNat).getD 2

/-- The domain of a position, by number a + (24 ÷ k) × b. -/
def domainOf (k : Nat) (p : Nat × Nat) : Nat := p.1 / k + 24 / k * (p.2 / k)

/-- The barns of a domain in ascending number: position m holds barn m of the domain. -/
def domainBarns (k d : Nat) : List Nat := (List.range 288).filter fun b => domainOf k (barnPos b) = d

/-- Where a loft offset lies in a domain: barn m at partition offset p (R104). -/
def loftPlace (k o : Nat) : Nat × Nat := (o / 4096 % (k * k / 2), o / 4096 / (k * k / 2) * 4096 + o % 4096)

/-- The barn that holds an offset's byte in a domain. -/
def loftBarn (k d o : Nat) : Nat := (domainBarns k d).getD (loftPlace k o).1 0

/-- Hops between two positions (R15). -/
def hops (p q : Nat × Nat) : Nat := (max p.1 q.1 - min p.1 q.1) + (max p.2 q.2 - min p.2 q.2)

/-- The first of some barns that lies nearest to a stable in hops (log 66): they stand in order of domain number, so ties go
to the lower. -/
def nearestBarn (stable : Nat) : List Nat → Option Nat
  | [] => none
  | b :: bs =>
    let far := fun x => hops (stablePos stable) (barnPos x)
    some (bs.foldl (fun best x => if far x < far best then x else best) b)

/-- The barn whose copy serves a stable's read of an offset (R104): its own domain's, or, where that barn is lost, the same
position of the nearest domain whose barn stands; its own again, rebuilt from its ring, where none does (R103). -/
def State.loftServer (s : State) (stable o : Nat) : Nat :=
  let k := s.loftSide
  let b := loftBarn k (domainOf k (stablePos stable)) o
  if !(s.barn b).lost then b
  else
    let copies := (List.range (24 / k * (24 / k))).map fun d => loftBarn k d o
    (nearestBarn stable (copies.filter fun x => !(s.barn x).lost)).getD b

/-! ### Poison -/

/-- The key under which the poison of 8 bytes of a barn's loft partition is listed; the list holds what differs from the
barn (R102, R231). -/
def loftKey (barn p : Nat) : Nat := 2 ^ 63 + barn * 2 ^ 32 + 2 ^ 31 + p / 8

def State.cellsBad (s : State) (key barn : Nat) : Bool := kget false s.poison key != (s.barn barn).dead

/-- Some loft byte of an interval is poisoned where it is served to a stable. -/
def State.loftPoison (s : State) (stable off n : Nat) : Bool :=
  (!s.poison.isEmpty || s.barns.any fun p => p.2.dead) &&
  (List.range n).any fun i =>
    let b := s.loftServer stable (off + i)
    s.cellsBad (loftKey b (loftPlace s.loftSide (off + i)).2) b

/-! ### Reads -/

/-- A gang may read a loft offset: its queue's loft-map entry permits it (R164). -/
def State.loftAllowed (s : State) (gang : Nat) (o : Nat) : Bool :=
  let e := kget 0 s.loftmap (s.launch (lidOf gang)).queue
  let base := (e.extractLsb' 0 32).toNat * 4096
  let len := (e.extractLsb' 32 32).toNat * 4096
  base ≤ o && o < base + len && o < s.cfg.ls.toNat * 4096

/-- The stable that reads for a gang: that of the stall which runs it. -/
def State.stableOfGang (s : State) (gang : Nat) : Nat := stableOf (s.hostOf (s.gang gang).stall)

/-- A loft read (R88, R102, R104, R164). -/
def State.checkLoft (s : State) (gang : Nat) (a : Word) (n : Nat) : Except LaneFault Nat :=
  if !(s.loftAllowed gang a.toNat && s.loftAllowed gang (a.toNat + n - 1)) then .error (LaneFault.plain .permission a)
  else if a.toNat % n ≠ 0 then .error (LaneFault.plain .misaligned a)
  else if s.loftPoison (s.stableOfGang gang) a.toNat n then .error (LaneFault.plain .poison a)
  else .ok a.toNat

/-- The loft bytes at an offset (R104): every domain's copy holds the same. -/
def State.loftValue (s : State) (off n : Nat) : Nat := leValue (s.loft.readN off n)

/-- A unit of a stable reads loft lines: the slices of the barns that serve them hold them (R101). -/
def State.serveLoft (s : State) (stable off n : Nat) : State :=
  (List.range ((off + n + 63) / 64 - off / 64)).foldl
    (fun s i =>
      let o := (off / 64 + i) * 64
      s.holdLine (s.loftServer stable o) (sliceOf o) { loft := true, tag := o / 64 }) s

/-- The sector of a loft line that holds an offset, as a mask of the line's words (R96). -/
def loftSector (o : Nat) : BitVec 16 := if o / 32 % 2 = 0 then 0x00FF else 0xFF00

/-- A stall's L1 holds the sector of a loft offset. -/
def State.loftHit (s : State) (stall o : Nat) : Bool :=
  match (s.stall stall).line? true (o / 64) with
  | none => false
  | some l => l.valid &&& loftSector o = loftSector o

/-- A sector of the loft that the L1 does not hold is filled, from the barn that serves it; one that it holds makes its line the
most recently used (R96, R101). -/
def State.fillLoft (s : State) (stall o : Nat) : State :=
  let tag := o / 64
  let s := if s.loftHit stall o then s else s.serveLoft (stableOf stall) o 1
  let old := ((s.stall stall).line? true tag).getD (Line.empty true tag)
  s.insertLine stall { old with valid := old.valid ||| loftSector o, data := BitVec.ofNat 512 (s.loftValue (64 * tag) 64) }

/-- A loft read fills the sectors it touches in the L1 (R96), and counts as one hit or one miss (R193, log 75). -/
def State.touchLoft (s : State) (stall off n : Nat) : State :=
  let last := off + n - 1
  let hit := s.loftHit stall off && s.loftHit stall last
  let s1 := s.fillLoft stall off
  let s2 := if off / 32 = last / 32 then s1 else s1.fillLoft stall last
  s2.tallied stall (if hit then 5 else 6) 1

end Sys2Proof.Machine
end

