-- ==== Sys2Proof/Machine/Special.lean ====
section
/-!
DEFINITION. The special functions (R293, R294): each result is the exact real value rounded once to binary32. Quotients
and roots are exact with a sticky bit; 2^x, log2, sin and cos are irrational wherever the table names no exact case, and
are computed in fixed point to 340 bits, far below the least distance of a binary32 operand's value from a rounding
boundary (log 12).
-/

namespace Sys2Proof.Machine

/-- Fixed-point precision: a number x stands for x ÷ 2^340. -/
def fxBits : Nat := 340
def fxOne : Nat := 2 ^ fxBits

/-- ⌊√n⌋ by bits, from bit k down. -/
def isqrtFrom : Nat → Nat → Nat → Nat
  | 0, n, r => if (r + 1) * (r + 1) ≤ n then r + 1 else r
  | k + 1, n, r =>
    let r' := r + 2 ^ (k + 1)
    isqrtFrom k n (if r' * r' ≤ n then r' else r)
def isqrt (n : Nat) : Nat := isqrtFrom (Nat.log2 n / 2 + 1) n 0

/-- Σ over k < fuel of z^(2k+1) ÷ (2k+1), signs alternating when alt: atanh or atan of z in fixed point. -/
def oddSeries (alt : Bool) (zz : Nat) : Nat → Nat → Nat → Int → Int
  | 0, _, _, acc => acc
  | fuel + 1, k, pow, acc =>
    let term : Int := (pow / (2 * k + 1) : Nat)
    oddSeries alt zz fuel (k + 1) (pow * zz / fxOne) (if alt && k % 2 = 1 then acc - term else acc + term)
def atanhFx (z : Nat) : Int := oddSeries false (z * z / fxOne) 120 0 z 0
def atanFx (z : Nat) : Int := oddSeries true (z * z / fxOne) 120 0 z 0

/-- ln 2 = 2 atanh(1/3), and π by Machin's formula. -/
def ln2Fx : Nat := (2 * atanhFx (fxOne / 3)).toNat
def piFx : Nat := (16 * atanFx (fxOne / 5) - 4 * atanFx (fxOne / 239)).toNat

/-- Σ x^k ÷ k! for x in fixed point. -/
def expSeries (x : Nat) : Nat → Nat → Nat → Nat → Nat
  | 0, _, _, acc => acc
  | fuel + 1, k, term, acc => expSeries x fuel (k + 1) (term * x / fxOne / (k + 1)) (acc + term)
/-- 2^f for a fraction f in fixed point. -/
def exp2Fx (f : Nat) : Nat := expSeries (f * ln2Fx / fxOne) 90 0 fxOne 0

/-- Σ (−1)^k x^(2k+1) ÷ (2k+1)!. -/
def sinSeries (xx : Nat) : Nat → Nat → Nat → Int → Int
  | 0, _, _, acc => acc
  | fuel + 1, k, term, acc =>
    sinSeries xx fuel (k + 1) (term * xx / fxOne / ((2 * k + 2) * (2 * k + 3)))
      (if k % 2 = 1 then acc - (term : Int) else acc + (term : Int))
/-- sin(π r) for r in fixed point, 0 < r ≤ 1/2. -/
def sinPiFx (r : Nat) : Nat :=
  let x := r * piFx / fxOne
  (sinSeries (x * x / fxOne) 50 0 x 0).toNat

/-- An irrational value near a fixed-point approximation: 20 bits are dropped and replaced by a sticky bit. -/
def stickyFx (neg : Bool) (x : Nat) (e : Int) : Number := .fin neg (2 * (x >>> 20) + 1) (e - fxBits + 20 - 1)

/-- The quotient of two positive integers with 80 extra bits and a sticky bit. -/
def quotient (neg : Bool) (a b : Nat) (e : Int) : Number :=
  let sh := Nat.log2 b + 80
  let q := (a <<< sh) / b
  .fin neg (2 * q + (if q * b = a <<< sh then 0 else 1)) (e - sh - 1)

/-- The root of m × 2^e with at least 80 bits and a sticky bit. -/
def rootOf (m : Nat) (e : Int) : Number :=
  let sh : Nat := if (e % 2 : Int) = 0 then 200 else 201
  let x := m <<< sh
  let r := isqrt x
  .fin false (2 * r + (if r * r = x then 0 else 1)) ((e - sh) / 2 - 1)

/-- A value split as an integer part and a fraction in fixed point, for magnitudes below 2^160 and exponents of
binary32. -/
def splitFx (neg : Bool) (m : Nat) (e : Int) : Int × Nat :=
  let x : Int := if 0 ≤ e then ((m <<< e.toNat) * fxOne : Nat) else ((m * fxOne) >>> (-e).toNat : Nat)
  let y : Int := if neg then -x else x
  (y / (fxOne : Int), (y % (fxOne : Int)).toNat)

def fnRcp : Number → Number
  | .nan => .nan
  | .inf s => .fin s 0 0
  | .fin s m e => if m = 0 then .inf s else quotient s 1 m (-e)

def fnSqrt : Number → Number
  | .nan => .nan
  | .inf s => if s then .nan else .inf false
  | .fin s m e => if m = 0 then .fin s 0 0 else if s then .nan else rootOf m e

/-- 1 ÷ √a: the root of the quotient 2^400 ÷ m, whose sticky bit marks both inexact steps. -/
def fnRsq : Number → Number
  | .nan => .nan
  | .inf s => if s then .nan else .fin false 0 0
  | .fin s m e =>
    if m = 0 then .inf s
    else if s then .nan
    else
      let m' := if (e % 2 : Int) = 0 then m else 2 * m
      let e' := if (e % 2 : Int) = 0 then e else e - 1
      let q := 2 ^ 400 / m'
      let r := isqrt q
      .fin false (2 * r + (if r * r * m' = 2 ^ 400 then 0 else 1)) (-200 - e' / 2 - 1)

def fnExp2 : Number → Number
  | .nan => .nan
  | .inf s => if s then .fin false 0 0 else .inf false
  | .fin s m e =>
    if m = 0 then .fin false 1 0
    else if 9 ≤ e + Nat.log2 m then (if s then .fin false 0 0 else .inf false)
    else
      let p := splitFx s m e
      if p.2 = 0 then .fin false 1 p.1 else stickyFx false (exp2Fx p.2) p.1

def fnLog2 : Number → Number
  | .nan => .nan
  | .inf s => if s then .nan else .inf false
  | .fin s m e =>
    if m = 0 then .inf true
    else if s then .nan
    else
      let l := Nat.log2 m
      let k : Int := e + l
      if m = 2 ^ l then Number.ofInt k
      else
        -- ln(x) = 2 atanh((x − 1) ÷ (x + 1)) for x = m ÷ 2^l in (1, 2)
        let z := (m - 2 ^ l) * fxOne / (m + 2 ^ l)
        let t : Int := k * fxOne + (2 * atanhFx z) * fxOne / ln2Fx
        stickyFx (t < 0) t.natAbs 0

/-- sin(π × a) and cos(π × a) from the quadrant of a: |a| mod 2 in halves, and the rest. -/
def quadrant (m : Nat) (e : Int) : Nat × Nat :=
  let p := splitFx false m e
  let twice := 2 * p.2
  (((p.1 % 2).toNat * 2 + twice / fxOne) % 4, twice % fxOne / 2)

def fnSinPi : Number → Number
  | .nan => .nan
  | .inf _ => .nan
  | .fin s m e =>
    if m = 0 || 0 ≤ e then .fin s 0 0
    else
      let (q, r) := quadrant m e
      let neg := s != (2 ≤ q : Bool)
      if r = 0 then (if q % 2 = 0 then .fin s 0 0 else .fin neg 1 0)
      else stickyFx neg (sinPiFx (if q % 2 = 0 then r else fxOne / 2 - r)) 0

def fnCosPi : Number → Number
  | .nan => .nan
  | .inf _ => .nan
  | .fin _ m e =>
    if m = 0 then .fin false 1 0
    else if 0 ≤ e then .fin ((m <<< e.toNat) % 2 = 1) 1 0
    else
      let (q, r) := quadrant m e
      let neg : Bool := q = 1 || q = 2
      if r = 0 then (if q % 2 = 1 then .fin false 0 0 else .fin neg 1 0)
      else stickyFx neg (sinPiFx (if q % 2 = 0 then fxOne / 2 - r else r)) 0

end Sys2Proof.Machine
end

