-- ==== Sys2Proof/Machine/Rays.lean ====
section
/-!
DEFINITION. The generator of DRAW (R356), F32 steps rounded one by one (R364), ray queries (R362 to R365) and light-tree
walks (R366), as functions of their inputs and the loft.
-/

namespace Sys2Proof.Machine

/-! ### DRAW (R356) -/

def drawOut (k0 k1 c0 c1 : Lane) : Lane :=
  let a := (c0 ^^^ k0) * 0x9E3779B1#32
  let b := ((c1 ^^^ k1) ^^^ (a >>> 16)) * 0x7FEB352D#32
  let a := (a ^^^ (b >>> 15)) * 0x846CA68B#32
  a ^^^ (b ^^^ (a >>> 16))

/-- The uniform form: the top 24 bits over 2^24, exact in binary32. -/
def uniform (x : Lane) : Lane := rne32 (.fin false (x >>> 8).toNat (-24))

/-! ### Arithmetic -/

/-- The exact quotient, as far as a rounding to binary32 can tell. -/
def Number.div : Number → Number → Number
  | .nan, _ => .nan
  | _, .nan => .nan
  | .inf _, .inf _ => .nan
  | .inf a, .fin b _ _ => .inf (a != b)
  | .fin a _ _, .inf b => .fin (a != b) 0 0
  | .fin a m1 e1, .fin b m2 e2 =>
    if m2 = 0 then (if m1 = 0 then .nan else .inf (a != b))
    else if m1 = 0 then .fin (a != b) 0 0
    else quotient (a != b) m1 m2 (e1 - e2)

def fdiv32 (a b : Lane) : Lane := rne32 (Number.div (f32val a) (f32val b))
def fone : Lane := 0x3F800000
def fposInf : Lane := 0x7F800000
def fnegInf : Lane := 0xFF800000
def isNan32 (a : Lane) : Bool := (f32val a).isNan
def isZero32 (a : Lane) : Bool := a &&& 0x7FFFFFFF#32 = 0
/-- a ≤ b for values that are not NaN. -/
def fle32 (a b : Lane) : Bool := !isNan32 a && !isNan32 b && !flt32 b a
/-- Negative (below −0), NaN or infinite (R355). -/
def invalid32 (a : Lane) : Bool :=
  match f32val a with
  | .nan => true
  | .inf _ => true
  | .fin s m _ => s && m ≠ 0

/-! ### Rays (R362 to R364) -/

structure Vec3 where
  x : Lane
  y : Lane
  z : Lane
  deriving DecidableEq, Repr

def Vec3.sub (a b : Vec3) : Vec3 := ⟨fsub32 0 a.x b.x, fsub32 0 a.y b.y, fsub32 0 a.z b.z⟩
def cross1 (a b c d : Lane) : Lane := fsub32 0 (fmul32 0 a b) (fmul32 0 c d)
def Vec3.cross (p q : Vec3) : Vec3 := ⟨cross1 p.y q.z p.z q.y, cross1 p.z q.x p.x q.z, cross1 p.x q.y p.y q.x⟩
def Vec3.dot (p q : Vec3) : Lane :=
  fadd32 0 (fadd32 0 (fmul32 0 p.x q.x) (fmul32 0 p.y q.y)) (fmul32 0 p.z q.z)

structure Ray where
  o : Vec3
  d : Vec3
  tmin : Lane
  tmax : Lane
  deriving DecidableEq, Repr

def Ray.of (v : List Lane) : Ray :=
  let g := fun i => v.getD i 0
  { o := ⟨g 0, g 1, g 2⟩, d := ⟨g 3, g 4, g 5⟩, tmin := g 6, tmax := g 7 }

/-- A ray that misses without traversal (R363). -/
def Ray.void (r : Ray) : Bool :=
  [r.o.x, r.o.y, r.o.z, r.d.x, r.d.y, r.d.z, r.tmin, r.tmax].any isNan32 || flt32 r.tmax r.tmin

/-- One axis of the box test: its interval. -/
def slab (lo hi o d : Lane) : Lane × Lane :=
  let inv := fdiv32 fone d
  let t0 := fmul32 0 (fsub32 0 lo o) inv
  let t1 := fmul32 0 (fsub32 0 hi o) inv
  if isNan32 t0 || isNan32 t1 then (fnegInf, fposInf) else if flt32 t1 t0 then (t1, t0) else (t0, t1)

def larger (a b : Lane) : Lane := if flt32 a b then b else a
def smaller (a b : Lane) : Lane := if flt32 b a then b else a

/-- The box test (R364) on the six words of a box. -/
def Ray.hitsBox (r : Ray) (w : Nat → Lane) : Bool :=
  let x := slab (w 0) (w 3) r.o.x r.d.x
  let y := slab (w 1) (w 4) r.o.y r.d.y
  let z := slab (w 2) (w 5) r.o.z r.d.z
  fle32 (larger (larger r.tmin x.1) (larger y.1 z.1)) (smaller (smaller r.tmax x.2) (smaller y.2 z.2))

/-- A hit with the offset of its triangle. -/
structure RayHit where
  t : Lane
  prim : Lane
  b1 : Lane
  b2 : Lane
  off : Nat
  deriving DecidableEq, Repr

/-- The triangle test (R364). -/
def Ray.hitsTri (r : Ray) (v0 v1 v2 : Vec3) (prim : Lane) (off : Nat) : Option RayHit :=
  let e1 := v1.sub v0
  let e2 := v2.sub v0
  let s := r.o.sub v0
  let p := r.d.cross e2
  let q := s.cross e1
  let det := e1.dot p
  if isZero32 det || isNan32 det then none
  else
    let inv := fdiv32 fone det
    let b1 := fmul32 0 (s.dot p) inv
    let b2 := fmul32 0 (r.d.dot q) inv
    let t := fmul32 0 (e2.dot q) inv
    if fle32 0 b1 && fle32 0 b2 && fle32 (fadd32 0 b1 b2) fone && fle32 r.tmin t && fle32 t r.tmax
    then some { t := t, prim := prim, b1 := b1, b2 := b2, off := off } else none

/-- The least t, then the least PRIM, then the least offset (R363). -/
def RayHit.better (a b : RayHit) : Bool :=
  flt32 a.t b.t || (!flt32 b.t a.t && (a.prim.toNat < b.prim.toNat || (a.prim = b.prim && a.off < b.off)))
def bestHit (b : Option RayHit) (x : Option RayHit) : Option RayHit :=
  match b, x with
  | some u, some v => if v.better u then some v else some u
  | none, v => v
  | u, none => u

/-! ### Traversal (R362, R365) -/

def childKind (w : Word) : Nat := (w.extractLsb' 0 2).toNat
def childCount (w : Word) : Nat := (w.extractLsb' 2 5).toNat + 1
def childOff (w : Word) : Nat := (w &&& ~~~127#64).toNat
/-- A child word follows R362. -/
def childOk (w : Word) : Bool :=
  match childKind w with
  | 0 => w = 0
  | 1 => w.extractLsb' 2 5 = 0
  | 2 => true
  | _ => false

/-- A 4-byte loft word. -/
def State.loftLane (s : State) (off : Nat) : Lane := BitVec.ofNat 32 (leValue (s.loft.readN off 4))
def State.loftVec (s : State) (off : Nat) : Vec3 := ⟨s.loftLane off, s.loftLane (off + 4), s.loftLane (off + 8)⟩
/-- The loft map permits an interval for a gang (R164). -/
def State.loftSpan (s : State) (gang off n : Nat) : Bool := s.loftAllowed gang off && s.loftAllowed gang (off + n - 1)

/-- What a traversal gives: its best hit, or the fault it met. -/
abbrev RayEnd := Except Cause (Option RayHit)

/-- The triangles of a leaf: n are left. -/
def State.leafHits (s : State) (r : Ray) : Nat → Nat → Option RayHit → RayEnd
  | 0, _, best => .ok best
  | n + 1, off, best =>
    if s.loftLane (off + 40) ≠ 0 || s.loftLane (off + 44) ≠ 0 then .error .poison
    else
      let hit := r.hitsTri (s.loftVec off) (s.loftVec (off + 12)) (s.loftVec (off + 24)) (s.loftLane (off + 36)) off
      State.leafHits s r n (off + 48) (bestHit best hit)

/-- The children of a box node whose boxes the ray hits, in order; none when a child word breaks R362. -/
def State.nodeChildren (s : State) (r : Ray) (off : Nat) : Option (List Word) :=
  let word := fun c => BitVec.ofNat 64 (leValue (s.loft.readN (off + 96 + 8 * c) 8))
  if (List.range 4).all fun c => childOk (word c) then
    some (((List.range 4).filter fun c =>
      childKind (word c) ≠ 0 && r.hitsBox fun i => s.loftLane (off + 24 * c + 4 * i)).map word)
  else none

/-- Follow child words depth first (log 15), by a ray unit of a stable, whose copy of the loft it reads (R104): at most n visits
are left (R365). -/
def State.traverse (s : State) (unit gang : Nat) (r : Ray) : Nat → List Word → Option RayHit → RayEnd
  | _, [], best => .ok best
  | 0, _ :: _, _ => .error .poison
  | n + 1, w :: ws, best =>
    let off := childOff w
    if childKind w = 1 then
      if !s.loftSpan gang off 128 then .error .permission
      else if s.loftPoison unit off 128 then .error .poison
      else
        match s.nodeChildren r off with
        | none => .error .poison
        | some cs => State.traverse s unit gang r n (cs ++ ws) best
    else if !s.loftSpan gang off (48 * childCount w) then .error .permission
    else if s.loftPoison unit off (48 * childCount w) then .error .poison
    else
      match s.leafHits r (childCount w) off best with
      | .error c => .error c
      | .ok b => State.traverse s unit gang r n ws b

def rayVisits : Nat := 65536
/-- One query from a root offset, by a ray unit of a stable. -/
def State.rayEndAt (s : State) (unit gang : Nat) (root : Word) (v : List Lane) : RayEnd :=
  let r := Ray.of v
  if r.void then .ok none else s.traverse unit gang r rayVisits [root ||| 1#64] none
/-- One lane's query, by the stable that runs its gang. -/
def State.rayEnd (s : State) (gang : Nat) (root : Word) (v : List Lane) : RayEnd :=
  s.rayEndAt (s.stableOfGang gang) gang root v

/-- A lane's traversal needs more visits than are allowed (R365). -/
def State.visitsOver (s : State) (unit gang : Nat) (r : Ray) : Nat → List Word → Bool
  | _, [] => false
  | 0, _ :: _ => true
  | n + 1, w :: ws =>
    let off := childOff w
    if childKind w = 1 then
      s.loftSpan gang off 128 && !s.loftPoison unit off 128 &&
      match s.nodeChildren r off with
      | none => false
      | some cs => State.visitsOver s unit gang r n (cs ++ ws)
    else
      s.loftSpan gang off (48 * childCount w) && !s.loftPoison unit off (48 * childCount w) &&
      match s.leafHits r (childCount w) off none with
      | .error _ => false
      | .ok _ => State.visitsOver s unit gang r n ws
def State.rayOver (s : State) (gang : Nat) (root : Word) (v : List Lane) : Bool :=
  let r := Ray.of v
  !r.void && s.visitsOver (s.stableOfGang gang) gang r rayVisits [root ||| 1#64]

/-- The intervals of the loft that a traversal reads, in order. -/
def State.visited (s : State) (unit gang : Nat) (r : Ray) : Nat → List Word → List (Nat × Nat)
  | _, [] => []
  | 0, _ :: _ => []
  | n + 1, w :: ws =>
    let off := childOff w
    let node := childKind w = 1
    let len := if node then 128 else 48 * childCount w
    if !s.loftSpan gang off len then []
    else (off, len) ::
      (if s.loftPoison unit off len then []
       else if node then
        match s.nodeChildren r off with
        | none => []
        | some cs => State.visited s unit gang r n (cs ++ ws)
       else
        match s.leafHits r (childCount w) off none with
        | .error _ => []
        | .ok _ => State.visited s unit gang r n ws)

/-- The slices that serve a query's reads of the loft hold the lines (R101). -/
def State.serveRay (s : State) (unit gang : Nat) (root : Word) (v : List Lane) : State :=
  let r := Ray.of v
  if r.void then s
  else (s.visited unit gang r rayVisits [root ||| 1#64]).foldl (fun s p => s.serveLoft unit p.1 p.2) s

/-- The four results of RAYQ for a lane (R363, R365). -/
def rayqResult : RayEnd → List Lane
  | .ok none => [fposInf, 0xFFFFFFFF, 0, 0]
  | .ok (some h) => [h.t, h.prim, h.b1, h.b2]
  | .error c => [canonNan32, 0xFFFFFFFE, (if c = .permission then 0x08 else 0x0B), 0]
/-- The result of RAYV for a lane. -/
def rayvResult : RayEnd → Lane
  | .ok none => 1
  | .ok (some _) => 0
  | .error _ => 2

/-! ### Light trees (R366) -/

/-- How a walk ends: a light with its probability, or a fault; `steps` says that 64 steps were reached. With it, the loft offsets
of the nodes that it read. -/
structure TreeEnd where
  light : Lane
  pdf : Lane
  steps : Bool
  nodes : List Nat
  deriving DecidableEq, Repr

def treeFault (steps : Bool) (nodes : List Nat) : TreeEnd :=
  { light := 0xFFFFFFFF, pdf := canonNan32, steps := steps, nodes := nodes }

/-- The walk from a node at step k, by a ray unit of a stable: n steps are left before the bound of 64. -/
def State.treeWalk (s : State) (unit gang : Nat) (k0 k1 c0 c1 : Lane) : Nat → Nat → Nat → Lane → TreeEnd
  | 0, _, _, _ => treeFault true []
  | n + 1, k, node, pdf =>
    if !s.loftSpan gang node 16 then treeFault false []
    else if s.loftPoison unit node 16 then treeFault false [node]
    else
      let wl := s.loftLane node
      let wr := s.loftLane (node + 4)
      if invalid32 wl || invalid32 wr || (isZero32 wl && isZero32 wr) then treeFault false [node]
      else
        let u := uniform (drawOut k0 k1 (c0 + BitVec.ofNat 32 k) c1)
        let pl := fdiv32 wl (fadd32 0 wl wr)
        let left := flt32 u pl
        let p := if left then pl else fsub32 0 fone pl
        let c := s.loftLane (node + (if left then 8 else 12))
        let pdf := fmul32 0 pdf p
        if c.getLsbD 31 then { light := c &&& 0x7FFFFFFF#32, pdf := pdf, steps := false, nodes := [node] }
        else
          let e := State.treeWalk s unit gang k0 k1 c0 c1 n (k + 1) ((c &&& 0x7FFFFFFF#32).toNat * 16) pdf
          { e with nodes := node :: e.nodes }

/-- One lane's walk: its inputs are c0, c1, k0 and k1. -/
def State.treeEnd (s : State) (gang : Nat) (root : Word) (v : List Lane) : TreeEnd :=
  s.treeWalk (s.stableOfGang gang) gang (v.getD 2 0) (v.getD 3 0) (v.getD 0 0) (v.getD 1 0) 64 0 root.toNat fone

/-- The slices that serve a walk's reads of the loft hold the lines (R101). -/
def State.serveTree (s : State) (unit : Nat) (e : TreeEnd) : State := e.nodes.foldl (fun s off => s.serveLoft unit off 16) s

end Sys2Proof.Machine
end

