-- ==== Sys2Proof/Machine/Records.lean ====
section
/-!
DEFINITION. Reservoir records and their store (R106, R165, R166, R355, R360, R361), their arithmetic (R357 to R359), the
groom's work on a tile (R369, R371), and the end of a callable's run (R367, R368).
-/

namespace Sys2Proof.Machine

/-! ### Records in the store -/

/-- The words of a record, word 0 first (R355). -/
abbrev Record := List Lane
def Record.w (r : Record) (i : Nat) : Lane := r.getD i 0
def nullSample : Lane := 0xFFFFFFFF
def nullRecord : Record := [nullSample, 0, 0, 0, 0, 0, 0, 0]

/-- A reservoir address word (R106). -/
def resX (a : Word) : Nat := (a.extractLsb' 0 16).toNat
def resY (a : Word) : Nat := (a.extractLsb' 16 16).toNat
def resIdx (a : Word) : Nat := (a.extractLsb' 32 4).toNat
def resSlot (a : Word) : Nat := (a.extractLsb' 36 2).toNat
def resWord (x y idx slot : Nat) : Word := BitVec.ofNat 64 (x + y * 2 ^ 16 + idx * 2 ^ 32 + slot * 2 ^ 36)

/-- The tile lies inside the map. -/
def State.tileInside (s : State) (tx ty : Nat) : Bool := s.cfg.tmapEn && tx ≤ s.cfg.tmwm.toNat && ty ≤ s.cfg.tmhm.toNat

def tileKey (tx ty : Nat) : Nat := ty * 4096 + tx
/-- The map entry of a tile as a stable uses it: its cached copy, else the array's (R166), read as the memory that stands at its
address (log 67). -/
def State.tileEntry (s : State) (stable tx ty : Nat) : Word :=
  match kget 0 (s.stable stable).tiles (tileKey tx ty) with
  | 0 => BitVec.ofNat 64
      (s.coherentN (s.cfg.tmapBase.toNat + 8 * (ty * (s.cfg.tmwm.toNat + 1) + tx)) 8)
  | n + 1 => BitVec.ofNat 64 n

/-- The stable caches the entry it uses. -/
def State.cacheTile (s : State) (stable tx ty : Nat) : State :=
  if s.tileInside tx ty then
    let e := s.tileEntry stable tx ty
    s.modStable stable fun x => { x with tiles := kset 0 x.tiles (tileKey tx ty) (e.toNat + 1) }
  else s

def tileMapped (e : Word) : Bool := e.getLsbD 11
def tileOwner (e : Word) : Nat := (e.extractLsb' 0 9).toNat
/-- The holding barn of a tile (R165): none when SIDE leaves the grid. -/
def tileBarn (e : Word) : Option Nat :=
  let p := stablePos (tileOwner e)
  match (e.extractLsb' 9 2).toNat with
  | 0 => if p.1 < 23 then some (dieAt (p.1 + 1) p.2) else none
  | 1 => if 0 < p.1 then some (dieAt (p.1 - 1) p.2) else none
  | 2 => if p.2 < 23 then some (dieAt p.1 (p.2 + 1)) else none
  | _ => if 0 < p.2 then some (dieAt p.1 (p.2 - 1)) else none

/-- A tile's holding barn and base, where its map entry permits access (R166). -/
def State.tileHome (s : State) (stable tx ty : Nat) : Option (Nat × Nat) :=
  if !s.tileInside tx ty then none
  else
    let e := s.tileEntry stable tx ty
    if tileMapped e && e.extractLsb' 12 4 = 0 && e.extractLsb' 40 24 = 0 && tileOwner e < 288 then
      (tileBarn e).map fun b => (b, (e.extractLsb' 16 24).toNat * 32)
    else none

/-- Bytes of each barn's reservoir store (R163). -/
def State.storeBytes (s : State) : Nat := s.cfg.rs.toNat * 4 * mib

/-- The barn and offset of the record an address word names (R106, R166); none where PERMISSION is raised. -/
def State.recordAt (s : State) (stable : Nat) (a : Word) : Option (Nat × Nat) :=
  let rpp := s.cfg.rppm.toNat + 1
  if a.extractLsb' 38 26 ≠ 0 || rpp ≤ resIdx a || s.cfg.slotsm.toNat < resSlot a then none
  else
    match s.tileHome stable (resX a / 16) (resY a / 16) with
    | none => none
    | some (barn, base) =>
      let off := base + ((resSlot a * 256 + resY a % 16 * 16 + resX a % 16) * rpp + resIdx a) * 32
      if off + 32 ≤ s.storeBytes then some (barn, off) else none

/-- The key under which a record's poison is listed, beyond every scratchpad byte (R102); the list holds what differs
from the record's barn. -/
def resKey (barn off : Nat) : Nat := 2 ^ 63 + barn * 2 ^ 32 + off / 32
def State.recordPoisoned (s : State) (barn off : Nat) : Bool :=
  kget false s.poison (resKey barn off) != (s.barn barn).dead

def State.getRecord (s : State) (barn off : Nat) : Record :=
  (List.range 8).map fun i => BitVec.ofNat 32 (leValue ((s.barn barn).store.readN (off + 4 * i) 4))

/-- Write a record whole; rewriting ends its poison (R102, R361). -/
def State.putRecord (s : State) (barn off : Nat) (r : Record) : State :=
  let b := s.barn barn
  let bytes := r.flatMap fun w => (List.range 4).map fun i => w.extractLsb' (8 * i) 8
  let s := s.setBarn barn { b with store := b.store.writeN off bytes }
  if s.recordPoisoned barn off then { s with poison := kset false s.poison (resKey barn off) b.dead } else s

/-- Read a record: PERMISSION where it cannot be named, POISON for bad data or bits [255:224] (R360). -/
def State.readRecord (s : State) (stable : Nat) (a : Word) : Except Cause Record :=
  match s.recordAt stable a with
  | none => .error .permission
  | some (barn, off) =>
    let r := s.getRecord barn off
    if s.recordPoisoned barn off || r.w 7 ≠ 0 then .error .poison else .ok r

/-! ### Arithmetic (R355, R357 to R359) -/

def capOf (mcap : BitVec 32) : Nat := if mcap = 0 then 0xFFFFFFFF else mcap.toNat

/-- Fold a weight into a record: the sum, M, and, when it is taken, the sample. -/
def foldRecord (r : Record) (w u : Lane) (count cap : Nat) (y phat pay : Lane) : Record :=
  let ws := fadd32 0 (r.w 2) w
  let m := BitVec.ofNat 32 (min ((r.w 4).toNat + count) cap)
  let taken := flt32 (fmul32 0 u ws) w
  [if taken then y else r.w 0, if taken then phat else r.w 1, ws, r.w 3, m, r.w 5, if taken then pay else r.w 6, r.w 7]

/-- A weight as it is folded, and the flag of an invalid one. -/
def cleanWeight (w : Lane) : Lane × Lane := if invalid32 w then (0, 1) else (w, 0)

/-- R357: the record and F. -/
def recordUpdate (cap : Nat) (r c : Record) (u : Lane) : Record × Lane :=
  let w := cleanWeight (c.w 2)
  (foldRecord r w.1 u 1 cap (c.w 0) (c.w 1) (c.w 3), w.2)

/-- R358: the record and F. -/
def recordMerge (cap : Nat) (r src : Record) (pn u : Lane) : Record × Lane :=
  let w0 : Lane := if src.w 0 = nullSample then 0
    else fmul32 0 (fmul32 0 pn (src.w 3)) (rne32 (Number.ofInt (src.w 4).toNat))
  let w := cleanWeight w0
  (foldRecord r w.1 u (src.w 4).toNat cap (src.w 0) pn (src.w 6), w.2)

/-- R359: the record and F. -/
def recordNormalise (r : Record) : Record × Lane :=
  let empty := r.w 0 = nullSample || r.w 4 = 0 || isZero32 (r.w 2) || isZero32 (r.w 1)
  let bad := invalid32 (r.w 2) || invalid32 (r.w 1)
  if empty || bad then ([nullSample, r.w 1, r.w 2, 0, r.w 4, r.w 5, r.w 6, r.w 7], if empty then 0 else 2)
  else
    let den := rne32 ((Number.ofInt (r.w 4).toNat).mul (f32val (r.w 1)))
    ([r.w 0, r.w 1, r.w 2, fdiv32 (r.w 2) den, r.w 4, r.w 5, r.w 6, r.w 7], 0)

/-! ### The groom's work (R369, R371) -/

/-- Bits [hi:lo] of a structure held as a number. -/
def fld (d hi lo : Nat) : Nat := d / 2 ^ lo % 2 ^ (hi + 1 - lo)

def gmTx (d : Nat) : Nat := fld d 15 0
def gmTy (d : Nat) : Nat := fld d 31 16
def gmSrcs (d : Nat) : Nat := fld d 33 32
def gmPrevs (d : Nat) : Nat := fld d 35 34
def gmDsts (d : Nat) : Nat := fld d 37 36
def gmIdx (d : Nat) : Nat := fld d 41 38
def gmNspat (d : Nat) : Nat := fld d 45 42
def gmRad (d : Nat) : Int := fld d 49 46 + 1
def gmTemp (d : Nat) : Bool := fld d 50 50 = 1
def gmVis (d : Nat) : Bool := fld d 51 51 = 1
def gmStamp (d : Nat) : Nat := fld d 95 64
def gmClamp (d : Nat) : Nat := fld d 127 96
def gmMotion (d : Nat) : Nat := fld d 191 128
def gmPitch (d : Nat) : Nat := fld d 223 192
def gmEntry (d : Nat) : Word := BitVec.ofNat 64 (fld d 319 256)
def gmKey0 (d : Nat) : Lane := BitVec.ofNat 32 (fld d 351 320)
def gmKey1 (d : Nat) : Lane := BitVec.ofNat 32 (fld d 383 352)
def gmBvh (d : Nat) : Word := BitVec.ofNat 64 (fld d 447 384)

/-- The offset pattern of R371, from i = 1. -/
def groomOx : List Int := [1, 0, -1, 0, 1, -1, -1, 1, 2, 0, -2, 0, 2, -1, -2]
def groomOy : List Int := [0, 1, 0, -1, 1, 1, -1, -1, 0, 2, 0, -2, 1, 2, -1]

def Cmd.groomDesc (c : Cmd) : Nat := match c.kind with | .groom d .. => d | _ => 0
def Cmd.groomCap (c : Cmd) : Nat := match c.kind with | .groom _ _ m _ => capOf m | _ => 0
def Cmd.groomS1 (c : Cmd) : Word := match c.kind with | .groom _ _ _ x => x | _ => 0

def GroomJob.x (j : GroomJob) : Nat := 16 * gmTx j.cmd.groomDesc + j.pixel % 16
def GroomJob.y (j : GroomJob) : Nat := 16 * gmTy j.cmd.groomDesc + j.pixel / 16

/-- Count a skip with its cause: the count saturates, and the lowest code is kept (R369). -/
def GroomJob.skip (j : GroomJob) (code : Nat) : GroomJob :=
  { j with skips := min 0xFFFF (j.skips + 1), cause := if j.cause = 0 then code else min j.cause code }

def skipCode : Cause → Nat
  | .permission => 0x08
  | _ => 0x0B

/-- The motion word of a job's pixel (R369): none where its data is poisoned. -/
def State.motionOf (s : State) (j : GroomJob) : Option (Int × Int) :=
  let d := j.cmd.groomDesc
  let va := (gmMotion d + j.y * gmPitch d + 4 * j.x) % 2 ^ 64
  match (kfind j.cmd.pages (va / 65536)).map (· + va % 65536) with
  | none => none
  | some loc =>
    if (List.range 4).any fun i => s.poisonAt (loc + i) || s.unreachable (loc + i) then none
    else
      let w := s.coherentN loc 4
      some (sext (w % 65536) 16, sext (w / 65536) 16)

/-- What a candidate of MERGE is: nothing to merge, a fault, or a record. -/
inductive Candidate where
  | absent
  | bad (code : Nat)
  | found (r : Record)
  deriving DecidableEq, Repr

/-- A candidate at pixel coordinates in a slot (R371): outside the map or unmapped is no skip. -/
def State.candidateAt (s : State) (j : GroomJob) (x y : Int) (slot : Nat) : Candidate :=
  let st := j.stable
  if x < 0 || y < 0 || 65535 < x || 65535 < y then .absent
  else
    let tx := x.toNat / 16
    let ty := y.toNat / 16
    if !s.tileInside tx ty || !tileMapped (s.tileEntry st tx ty) then .absent
    else
      match s.readRecord st (resWord x.toNat y.toNat (gmIdx j.cmd.groomDesc) slot) with
      | .ok r => .found r
      | .error c => .bad (skipCode c)

/-- Candidate i of a job's pixel: 0 the temporal one, then the spatial ones (R371). -/
def State.candidate (s : State) (j : GroomJob) (i : Nat) : Candidate :=
  let d := j.cmd.groomDesc
  if i = 0 then
    if gmTemp d then
      match s.motionOf j with
      | none => .bad 0x0B
      | some (dx, dy) =>
        if dx = -32768 then .absent
        else
          match s.candidateAt j (j.x + dx) (j.y + dy) (gmPrevs d) with
          | .found r =>
            if gmClamp d = 0 then .found r
            else .found (r.set 4 (BitVec.ofNat 32 (min (r.w 4).toNat (gmClamp d))))
          | c => c
    else .absent
  else
    s.candidateAt j (j.x + groomOx.getD (i - 1) 0 * gmRad d) (j.y + groomOy.getD (i - 1) 0 * gmRad d) (gmSrcs d)

/-- The draw of candidate i (R371). -/
def groomDraw (j : GroomJob) (i : Nat) : Lane :=
  let d := j.cmd.groomDesc
  uniform (drawOut (gmKey0 d) (gmKey1 d) (BitVec.ofNat 32 (j.y * 65536 + j.x))
    (BitVec.ofNat 32 (gmStamp d % 2 ^ 24 * 256 + gmIdx d * 16 + i)))

/-- Fold candidate i into the job's record with its re-evaluated target, and go on to the next. -/
def GroomJob.fold (j : GroomJob) (q : Record) (pn : Lane) : GroomJob :=
  { j with mine := (recordMerge j.cmd.groomCap j.mine q pn (groomDraw j j.cand)).1, cand := j.cand + 1, other := [] }

/-- The request for the callable of candidate i (R371). -/
def GroomJob.request (j : GroomJob) (q : Record) : CallReq :=
  let d := j.cmd.groomDesc
  { who := .groom j.stable j.cmd.id, gang := j.cmd.gang, grp := j.cmd.grp, s1 := j.cmd.groomS1, fn := gmEntry d, lanes := 1,
    inputs := [(0, [q.w 0, q.w 6, BitVec.ofNat 32 (j.x + j.y * 65536), BitVec.ofNat 32 (gmIdx d),
      BitVec.ofNat 32 j.cand])] }

/-- Read the pixel's own record: one that cannot be read counts a skip and stands as a null record (R371). -/
def State.openPixel (s : State) (j : GroomJob) : GroomJob :=
  let d := j.cmd.groomDesc
  match s.readRecord j.stable (resWord j.x j.y (gmIdx d) (gmSrcs d)) with
  | .ok r => { j with mine := r }
  | .error c => { j.skip (skipCode c) with mine := nullRecord }

/-- Normalise, stamp and write the pixel's record, and go on to the next pixel (R371). -/
def State.closePixel (s : State) (j : GroomJob) : State × GroomJob :=
  let d := j.cmd.groomDesc
  let r := (recordNormalise j.mine).1.set 5 (BitVec.ofNat 32 (gmStamp d))
  let s := match s.recordAt j.stable (resWord j.x j.y (gmIdx d) (gmDsts d)) with
    | some (barn, off) => s.putRecord barn off r
    | none => s
  (s, { j with pixel := j.pixel + 1, cand := 0, mine := [], other := [] })

def GroomJob.done (j : GroomJob) : Bool := 256 ≤ j.pixel && !j.waiting

/-- Work on a job until it needs a callable or the tile is done: n bounds the candidates and pixels left. -/
def State.groomWork (s : State) : Nat → GroomJob → State × GroomJob
  | 0, j => (s, j)
  | n + 1, j =>
    if 256 ≤ j.pixel || j.waiting then (s, j)
    else
      let j := if j.mine.isEmpty then s.openPixel j else j
      if gmNspat j.cmd.groomDesc < j.cand then
        let p := s.closePixel j
        State.groomWork p.1 n p.2
      else
        match s.candidate j j.cand with
        | .absent => State.groomWork s n { j with cand := j.cand + 1 }
        | .bad code => State.groomWork s n { j.skip code with cand := j.cand + 1 }
        | .found q =>
          if q.w 0 = nullSample then State.groomWork s n (j.fold q 0)
          else
            (s.modStall j.stall fun st => { st with calls := st.calls ++ [j.request q] },
             { j with other := q, waiting := true })

/-- The candidates and pixels of a tile. -/
def groomSteps : Nat := 256 * 18

/-- Work on the jobs of a stable that belong to a command. -/
def State.groomOn (s : State) (stable cmd : Nat) : State :=
  (List.range (s.stable stable).jobs.length).foldl
    (fun s i =>
      match (s.stable stable).jobs[i]? with
      | some j =>
        if j.cmd.id = cmd then
          let p := s.groomWork groomSteps j
          p.1.modStable stable fun x => { x with jobs := x.jobs.set i p.2 }
        else s
      | none => s) s

/-- A callable's answer to the groom: its registers v0 to v8 of lane 0, or the code of its fault (R371). The query is one of the
tile's owner, which runs the groom. -/
def State.groomAnswered (s : State) (unit gang : Nat) (j : GroomJob) (ans : Except Nat (List Lane)) : GroomJob :=
  let d := j.cmd.groomDesc
  let j := { j with waiting := false }
  match ans with
  | .error code => (j.skip code).fold j.other 0
  | .ok v =>
    if gmVis d then
      match s.rayEndAt unit gang (gmBvh d) (v.drop 1) with
      | .ok none => j.fold j.other (v.getD 0 0)
      | .ok (some _) => j.fold j.other 0
      | .error c => (j.skip (skipCode c)).fold j.other (v.getD 0 0)
    else j.fold j.other (v.getD 0 0)

def State.answerGroom (s : State) (stable cmd gang : Nat) (ans : Except Nat (List Lane)) : State :=
  let js := (s.stable stable).jobs
  let asked := js.filter fun j => j.cmd.id = cmd && j.waiting && gmVis j.cmd.groomDesc
  let t : State := match ans with
    | .ok v => asked.foldl (fun (s : State) j => s.serveRay stable gang (gmBvh j.cmd.groomDesc) (v.drop 1)) s
    | .error _ => s
  (t.modStable stable fun x =>
    { x with jobs := x.jobs.map fun (j : GroomJob) => if j.cmd.id = cmd && j.waiting then s.groomAnswered stable gang j ans else j }).groomOn
      stable cmd

/-! ### The end of a callable's run (R367, R368) -/

/-- Free the callable slot and give the caller its answer: v0 of each lane, or the cause with the slot's address. -/
def State.endRun (s : State) (k : Nat) (fault : Option (Cause × Nat × Word)) : State :=
  let g := s.group k
  let stall := s.hostOf (s.gang (gangOf k)).stall
  match (s.stall stall).calling with
  | none => s
  | some q =>
    let s := { s.modStall stall fun st => { st with calling := none } with groups := kerase s.groups k }
    match q.who with
    | .group =>
      s.modGroup q.grp fun c =>
        c.setErrand fun op =>
          match fault with
          | some (cause, _, pc) => { op with kind := .refused cause 0xFFFFFFFF pc true }
          | none =>
            let ws := op.dst.flatMap fun d => match d with
              | .v n => (lanesOf q.lanes).map fun l => RegWrite.v n l (g.r.getV 0 l)
              | _ => []
            { op with kind := .replied, result := ws }
    | .groom stable cmd =>
      s.answerGroom stable cmd (gangOf k)
        (match fault with
         | some (_, code, _) => .error code
         | none => .ok ((List.range 9).map fun i => g.r.getV i 0))

end Sys2Proof.Machine
end

