-- ==== Sys2Proof/Machine/Ops.lean ====
section
/-!
DEFINITION. The operations every instruction shares: taking an exception (R84, R215) and returning from one (R83),
retiring, waiting at issue (R206, R207), the register interlocks (R75), the pair rules (R253), and the issue of one
instruction.
-/

namespace Sys2Proof.Machine

/-! ### Taking an exception -/

/-- Trap entry (R84): what the registers hold when a handler is entered. -/
def Regs.enter (r : Regs) (t : Trap) (pair second : Bool) (handler : Word) : Regs :=
  { r with
    tcause := BitVec.ofNat 8 t.cause.code
    flmask := t.lanes
    taddr := t.addr
    tpc := r.pc
    epc := r.pc
    estat := BitVec.ofNat 11 (t.cause.code + 256 * r.sup.toNat + 512 * pair.toNat + 1024 * second.toNat)
    sup := true
    trapAt := some r.pc
    pc := handler }

/-- Enter a handler: a transfer, checked for its TGT bit at the handler's fetch (R250, R251). -/
def State.enterHandler (s : State) (t : Trap) (handler : Word) : State :=
  s.modMe fun g =>
    { g with r := g.r.enter t g.pairFirst g.pairSecond handler, transferFrom := some g.r.pc, deny := none,
             pairFirst := false, pairSecond := false, before := none }

/-- The debug control of the issuing group's slot (R232): it stands with the logical stall. -/
def State.myDbg (s : State) : DbgCtl := kget DbgCtl.off (s.stall s.myStall).dbg s.me.slot
def State.setDbg (s : State) (stall slot : Nat) (d : DbgCtl) : State :=
  s.modStall stall fun st => { st with dbg := kset DbgCtl.off st.dbg slot d }

/-- The routing of R215 from its TASKID line onward, with the mode given (R216). -/
def State.routeFromTask (s : State) (t : Trap) (sup : Bool) : State :=
  let g := s.me
  let trapPc := s.myLaunch.trapPc
  if g.r.taskId ≠ 0 then s.endTask s.cur t.cause.code g.r.pc
  else if sup then s.endGang (gangOf s.cur) t.cause.code g.r.pc s.cur
  else if trapPc ≠ 0 then s.enterHandler t trapPc
  else s.endGang (gangOf s.cur) t.cause.code g.r.pc s.cur

/-- A group whose reported cause is TRANSLATION parks with WAKE code 7 and a request to the host (R217). -/
def State.parkTranslation (s : State) (t : Trap) : State :=
  let e := { s.eventOf 1 t.cause.code t.addr s.cur s.me.r.taskId with wr := t.wr, fetch := t.fetch, mal := t.mal }
  let seq := s.evSeq + BitVec.ofNat 16 s.evWaiting.length
  let d := s.myDbg
  let stepping := d.att && d.step
  let s' := if stepping then s.setDbg s.myStall s.me.slot { d with step := false } else s
  ((s'.appendEvent e).leaveSlot s.cur (.parked (.translation t.addr seq t.lanes))).modMe fun g => { g with stepping := stepping }

/-- A debug halt (R232): no register changes, and an event of kind 12 is appended. -/
def State.debugHalt (s : State) (brk : Bool) : State :=
  let d := s.myDbg
  let s := s.setDbg s.myStall s.me.slot
    { d with halted := true, hreq := false, step := false, run := false, atBrk := brk }
  s.appendEvent (s.eventOf 12 (if brk then Cause.code .debug else 0) s.me.r.pc s.cur s.me.r.taskId)

/-- Taking an exception (R215): the one operation through which every trap of the panel goes. A cause in a callable
ends its run, with no handler and no park (R367); a park whose record finds no block is not taken, and the group stays at its
instruction (R177). The wait in which the group stood, if any, has ended (R207). -/
def State.takeException (s : State) (svc : Bool) (t : Trap) : State :=
  let s := s.modMe fun g => { g with deny := none, blocked := none, waitSince := none }
  let s' :=
    if isCallable s.cur then s.endRun s.cur (some (t.cause, t.cause.code, s.me.r.pc))
    else if t.cause = .translation then (if s.parkRoom then s.parkTranslation t else s)
    else if t.cause = .misaligned || (t.cause = .trapInsn && svc) then s.enterHandler t s.me.r.tvec
    else if t.cause = .debug && s.myDbg.att then s.debugHalt true
    else s.routeFromTask t s.me.r.sup
  { s' with
    last := if isCallable s.cur then .trapped t.cause.code
            else if t.cause = .translation then (if s.parkRoom then .parked else .held 0)
            else if t.cause = .debug && s.myDbg.att then .halted else .trapped t.cause.code
    tried := if t.cause = .translation && !isCallable s.cur && !s.parkRoom then s.cur :: s.tried else [] }

/-- Return from a handler (R83, R251): the target is checked unless it is the trapping slot or the slot after it. -/
def Regs.eret (r : Regs) : Regs := { r with sup := r.estat.getLsbD 8 }

/-! ### Retiring and waiting -/

/-- An instruction retires (R178): the next PC is its successor, or its target when it transferred. -/
def State.retire (s : State) : State :=
  { s.modMe fun g =>
      { g with r := { g.r with pc := g.succ }, ric := g.ric + 1, blocked := none, waitSince := none }
    with last := .retired, tried := [] }

/-- WAKE codes (R180). -/
def Wake.code : Wake → Nat
  | .barrier .. => 1 | .room .. => 2 | .items .. => 2 | .reply => 3 | .future _ => 4 | .lock .. => 5 | .credit => 6
  | .translation .. => 7

def wakeCode : Option Wake → Nat
  | none => 0
  | some w => w.code

/-- A group that must wait keeps its slot and is examined again after the next change (R206, R326); at a blocking point
it may be parked (R207). -/
def State.hold (s : State) (w : Option Wake) (changed : Bool) : State :=
  { s.modMe fun g => { g with blocked := w }
    with last := .held (wakeCode w), tried := if changed then [s.cur] else s.cur :: s.tried }

/-- The outcome of an instruction's core. -/
def State.settle (s : State) (svc : Bool) : Eff → State
  | .ok s' => s'.retire
  | .error (.trap t) => s.takeException svc t
  | .error (.trapKeep t k) => k.takeException svc t
  | .error (.hold w) => s.hold w false
  | .error (.holdKeep w k) => k.hold w (k.me != s.me)

/-! ### Registers an instruction reads and writes -/

/-- The registers a field names under its form (R74, R354); s0 counts as none. -/
def opndRegs (x : Opnd) (ks : List Kind) (g : RegGroup) (o : Slot) : List RegName :=
  if ks.isEmpty then []
  else
    match x with
    | .v n => (List.range (g.span o).1).map fun i => .v (n.toNat + i)
    | .s n => if n = 0 then [] else [.s n.toNat]
    | .x n => [.x n.toNat]
    | .imm _ => []

/-- Registers an instruction writes beyond DST: status words, EXM, LPART, the lanes LREFILL fills (R277 to R279, R375,
R382), the flag register that OPC names under FLG (R353, R357 to R359). -/
def Instr.extraWrites : Instr → List RegName
  | .rsupd o => if o.bit34 then [.v o.c.num] else []
  | .rsmrg o => if o.bit34 then [.v o.c.num] else []
  | .rsnrm o => if o.bit34 then [.v o.c.num] else []
  | .fwait o => [.s (o.dst.num + 1)]
  | .deq o => [.s (o.dst.num + 1)]
  | .qwait o => [.s (o.dst.num + 1)]
  | .lrefill _ => [.v 0, .v 1, .x 0]
  | .mblk _ => [.x 0]
  | .serb _ => [.x 0]
  | .sere _ => [.x 0]
  | .part _ => [.x 1]
  | _ => []

/-- Special registers that an instruction writes at its issue and does not name: BALE's status (R339). The second slot of
a pair must not read one (R253); a write to one is no common destination, and R80 orders the two. -/
def Instr.statusWrites : Instr → List RegName
  | .bale _ => [.x 23, .x 24]
  | _ => []

/-- Registers an instruction reads beyond its operands: LPART in the lane exchanges, votes and reductions (R36), the
keys of the draws (R356, R366), MCAP and the record itself in the reservoir updates (R357 to R359), MCAP and s1 in what a
GROOM takes with it (R367, R371), s1 in a TCALL (R367). -/
def Instr.extraReads (i : Instr) : List RegName :=
  match i with
  | .shfl _ => [.x 1]
  | .shflx _ => [.x 1]
  | .shflup _ => [.x 1]
  | .shfldn _ => [.x 1]
  | .gshf _ => [.x 1]
  | .vbcast _ => [.x 1]
  | .vidx _ => [.x 1]
  | .voteany _ => [.x 1]
  | .voteall _ => [.x 1]
  | .redadd _ => [.x 1]
  | .redfadd _ => [.x 1]
  | .redmin _ => [.x 1]
  | .redmax _ => [.x 1]
  | .scanadd _ => [.x 1]
  | .scanfadd _ => [.x 1]
  | .matchLanes _ => [.x 1]
  | .draw _ => [.x 18, .x 19]
  | .rsupd o => .x 20 :: opndRegs o.dst [.v] .eight o
  | .rsmrg o => .x 20 :: opndRegs o.dst [.v] .eight o
  | .rsnrm o => opndRegs o.dst [.v] .eight o
  | .ltree _ => [.x 18, .x 19]
  | .tcall _ => [.s 1]
  | .groom _ => [.s 1, .x 20]
  | .sere _ => [.x 0]
  | _ => []

def Instr.writesRegs (i : Instr) : List RegName :=
  match i.encoded with
  | none => []
  | some (f, o) => opndRegs o.dst (f.dstKinds o) f.gd o ++ Instr.extraWrites i

/-- The instruction names s0 as its destination, where the value is discarded (R73). -/
def Instr.namesZero (i : Instr) : Bool :=
  match i.encoded with
  | none => false
  | some (f, o) => !(f.dstKinds o).isEmpty && o.dst == .s 0

/-- An instruction that acts per lane reads EXM (R34, R213). -/
def Instr.actsPerLane (i : Instr) : Bool :=
  match i.encoded with
  | none => false
  | some (f, _) =>
    match i with
    | .vlane _ => false
    | .lds _ => false
    | .sts _ => false
    | .volinv _ => false
    | _ => (0x20 ≤ f.major && f.major ≤ 0x27) || [0x60, 0x61, 0x62, 0x64, 0x81].contains f.major ||
           (f.major = 0x90 && f.minor ≤ 8)

def Instr.readsRegs (i : Instr) : List RegName :=
  match i.encoded with
  | none => []
  | some (f, o) =>
    opndRegs o.a f.a f.ga o ++ opndRegs o.b f.b f.gb o ++ opndRegs o.c (f.cKinds o) f.gc o ++ Instr.extraReads i ++
    (if Instr.actsPerLane i then [.x 0] else [])

/-- The register interlock (R75): an outstanding operation has still to write a register the instruction names. -/
def interlocked (i : Instr) (g : Group) : Bool :=
  g.ops.any fun op => !op.kind.errand && op.dst.any fun d => (Instr.readsRegs i).contains d || (Instr.writesRegs i).contains d

/-- The vector operands lie below the group's budget (R74, R264). -/
def budgetOk (i : Instr) (g : Group) : Bool :=
  match i.encoded with
  | none => true
  | some (f, o) => f.regsOk o g.vbudget

/-! ### Pairs (R253) -/

/-- The pairing class (R253): a load, store or atomic is of class M in its plain and relaxed forms, and solo in its
acquire and release forms. -/
def pairClassOf (i : Instr) : PairClass :=
  match i.encoded with
  | none => .solo
  | some (f, o) => if f.cls = .mem then (if 2 ≤ o.ord then .solo else .m) else f.cls

def secondOnly : Instr → Bool
  | .br _ => true
  | .brc _ => true
  | .jmp _ => true
  | .mblk _ => true
  | _ => false

/-- What R253 asks of the first slot alone. -/
def firstLegal (i : Instr) : Bool := pairClassOf i != .solo && !secondOnly i

/-- The two slots of a pair follow R253. What the rule exempts of s0 is a second slot's read: two slots that both name s0 as
destination name the same register (R76; DEDUCED, log 78). -/
def pairLegal (i j : Instr) : Bool :=
  let ci := pairClassOf i
  let cj := pairClassOf j
  firstLegal i && cj != .solo && (ci = .free || cj = .free || ci != cj) &&
  !(Instr.readsRegs j).any (fun x => (Instr.writesRegs i ++ Instr.statusWrites i).contains x) &&
  !(Instr.writesRegs j).any (fun x => (Instr.writesRegs i).contains x) && !(Instr.namesZero i && Instr.namesZero j)

/-! ### The issue of one instruction -/

/-- What is checked before an instruction's own effect: a cause the group has still to take (R217, R247), its legality (R264), its interlocks. -/
def admission (i : Instr) (g : Group) : Except Stop Unit :=
  match g.deny with
  | some (cause, lanes, addr) =>
    .error (.trap { cause := cause, lanes := lanes, addr := addr, wr := false, fetch := false, mal := false })
  | none =>
    if i.defect.isSome || !budgetOk i g then trapNow .illegalOp
    else if interlocked i g then holdNow
    else .ok ()

/-- SVC's TRAP_INSN goes to TVEC (R215). -/
def isSvc : Instr → Bool
  | .svc _ => true
  | _ => false

/-- A scalar register that a callable has (R367). -/
def lowScalar : Opnd → Bool
  | .s n => n.toNat < 16
  | _ => true

/-- The instructions a callable may use (R367). -/
def callableMay (i : Instr) : Bool :=
  match i.encoded with
  | none => false
  | some (f, o) =>
    lowScalar o.dst && lowScalar o.a && lowScalar o.b && lowScalar o.c &&
    (match i with
     | .nop _ => true
     | .swr _ => false
     | .mblk _ => true
     | .ldG _ => o.ord = 0
     | .ldF _ => o.ord = 0
     | .lds _ => o.ord = 0 && (o.space = 0 || o.space = 2)
     | .draw _ => true
     | .rayv _ => true
     | .tret _ => true
     | _ => f.major = 0x01 || f.major = 0x02 || f.major = 0x04 || (0x20 ≤ f.major && f.major ≤ 0x25))

/-- Instructions that may stand in no other place: TRET outside the callable slot, and in it whatever R367 excludes. -/
def placeOk (i : Instr) (k : Nat) : Bool :=
  if isCallable k then callableMay i
  else match i with
    | .tret _ => false
    | _ => true

/-- The issue of an instruction by the group at `cur`: its core, then its retirement, trap or wait. -/
def issue (i : Instr) (core : State → Eff) (s : State) : Host.Outcome State Fault Refusal :=
  match s.group? s.cur with
  | none => .fault .noGroup
  | some g =>
    match (if placeOk i s.cur then admission i g else trapNow .illegalOp) with
    | .error e => .next (s.settle (isSvc i) (.error e))
    | .ok _ => .next (s.settle (isSvc i) (core s))

/-- An event of the panel that is not enabled changes nothing (log 1). -/
def idle (s : State) : Host.Outcome State Fault Refusal := .next { s with last := .idle }

/-- An event of the panel: every waiting group is examined again after it. -/
def happens (s : State) : Host.Outcome State Fault Refusal := .next { s with last := .event, tried := [] }

/-- An event with its guard. -/
def when (b : Bool) (s0 : State) (s : State) : Host.Outcome State Fault Refusal := if b then happens s else idle s0

/-! ### Small shared effects -/

/-- Replace the registers of the issuing group. -/
def State.setRegs (s : State) (r : Regs) : State := s.modMe fun g => { g with r := r }
def State.regs (s : State) : Regs := s.me.r

/-- A transfer of control to a target (R250). -/
def State.jump (s : State) (target : Word) : State :=
  s.modMe fun g => { g with succ := target, transferFrom := some g.r.pc }

/-- The line address of the slot in issue (R250). -/
def lineAddr (pc : Word) : Word := pc &&& ~~~63#64
/-- The target of a displacement (R270). -/
def dispTarget (o : Slot) (pc : Word) : Word :=
  lineAddr pc + (((o.imm.extractLsb' 3 29).signExtend 64) <<< 6) + (o.imm.extractLsb' 0 3).setWidth 64

end Sys2Proof.Machine
end

