-- ==== Sys2Proof/Machine/Logs.lean ====
section
/-!
DEFINITION. The effect log (R182) and replay (R225): an instruction whose result another party decides makes an entry,
and in replay takes its result from it.
-/

namespace Sys2Proof.Machine

/-- The number of the instruction in issue: the RIC it will have retired with (R178, R182). -/
def Group.nextRic (g : Group) : Word := g.ric + 1

/-- The bytes of register writes. -/
def writeBytes (ws : List RegWrite) : Nat := (ws.map fun w => match w with | .s .. => 8 | .v .. => 4).sum

/-- A log entry would exceed the 256 KiB a group may hold (R182). -/
def Group.logFull (g : Group) (e : Effect) : Bool := 256 * 1024 < g.logSize + e.size

def Effect.of (kind : Nat) (g : Group) (key : Word) (writes : List RegWrite) : Effect :=
  { kind := kind, ric := g.nextRic, key := key, payload := writeBytes writes, writes := writes, complete := true,
    bytes := [], cmd := none, bale := none, exm := none }

/-- A gang returns to running: what a GBAR image of its replay holds is trimmed from its intake log (R181, R222). -/
def Gang.endReplay (g : Gang) : Gang :=
  if g.phase = .replay then { g with phase := .running, toApply := [], intake := g.intake.filter fun e => !e.imaged } else g

/-- A group leaves replay by a departure: the entries it has not consumed are discarded, from its log too. -/
def Group.leaveReplay (g : Group) : Group :=
  { g with replay := [], effects := g.effects.filter fun e => !g.replay.any fun x => x.ric = e.ric }

/-- A departure from the logs (R225): every group of the gang leaves replay. -/
def State.leaveReplay (s : State) : State :=
  let gk := gangOf s.cur
  let s := (s.groupsOf gk).foldl (fun s k => s.modGroup k Group.leaveReplay) s
  s.modGang gk Gang.endReplay

def diverge {α : Type} (s : State) : Except Stop α :=
  let key := match s.me.replay with | e :: _ => e.key | [] => 0
  .error (.trapKeep (Trap.whole .replayDiverge key) s.leaveReplay)

/-- The KIND of the log entry that an instruction makes when a group performs it (R182); atomics that are boundaries make
none, and neither does an access of no active lane. -/
def logKind (i : Instr) (g : Group) : Option Nat :=
  let lanes := g.r.exm ≠ 0
  match i with
  | .atomG o => if o.ord ≤ 2 && lanes then some 1 else none
  | .atomL o => if o.ord ≤ 2 && lanes then some 1 else none
  | .atomR o => if o.ord ≤ 2 && lanes then some 1 else none
  | .launch _ => some 1
  | .lock _ => some 1
  | .ldR _ => if lanes then some 2 else none
  | .gtime _ => some 3
  | .ltime _ => some 3
  | .cart _ => some 4
  | .cartg _ => some 4
  | .bale _ => some 4
  | .mloop _ => some 4
  | .mdrain _ => some 4
  | .mclr _ => some 4
  | .groom _ => some 4
  | .btest _ => some 5
  | .twaitany _ => some 5
  | .fwait _ => some 5
  | .deq _ => some 5
  | .qwait _ => some 5
  | .lrefill _ => some 5
  | _ => none

/-- The boundary instructions (R41). -/
def isBoundary : Instr → Bool
  | .gbar _ => true
  | .stint _ => true
  | .exit _ => true
  | .rel _ => true
  | .barr _ => true
  | .barrRemote _ => true
  | .fset _ => true
  | .unlock _ => true
  | .enq _ => true
  | .ybar _ => true
  | .stG o => o.ord = 3
  | .stL o => o.ord = 3
  | .stR o => o.ord = 3
  | .stRCnt o => o.ord = 3
  | .sts o => o.ord = 3
  | .atomG o => 3 ≤ o.ord
  | .atomL o => 3 ≤ o.ord
  | .atomR o => 3 ≤ o.ord
  | _ => false

/-- The departures that an instruction's kind alone shows (R225). An engine operation whose entry was discarded at restoring,
at the RIC at which it was issued, is performed again and is none (R223). -/
def diverges (i : Instr) (g : Group) : Bool :=
  match g.replay with
  | [] => false
  | e :: _ =>
    let kind := logKind i g
    (e.ric = g.nextRic && kind != some e.kind) ||
    (kind.isSome && !(kind = some 4 && g.dropped.contains g.nextRic) && g.nextRic.toNat < e.ric.toNat) ||
    (isBoundary i && e.ric.toNat < g.nextRic.toNat)

/-- The result of a logged instruction from its entry, in replay (R225): none where the instruction is to be performed. -/
def Group.fromLog (g : Group) (kind : Nat) (key : Word) : Option (Option Effect) :=
  match g.replay with
  | [] => none
  | e :: _ => if e.ric = g.nextRic then some (if e.kind = kind && e.key = key then some e else none) else none

/-- Take the next entry of the log: its register writes, with the mask of an LREFILL. -/
def State.takeEntry (s : State) (e : Effect) : State :=
  s.modMe fun g =>
    let r := g.r.writes e.writes
    { g with r := { r with exm := e.exm.getD r.exm }, replay := g.replay.drop 1 }

/-- Enter an entry in the group's log; none when it would grow past its bound (R182). -/
def State.record (s : State) (e : Effect) : Except Stop State :=
  if s.me.logFull e then trapNow .deadlock else .ok (s.modMe fun g => { g with effects := g.effects ++ [e] })

/-- An instruction of a logged kind: in replay it takes its entry, otherwise it is performed and makes one (R182,
R225). A log that would grow past its bound raises DEADLOCK with nothing performed. -/
def logged (kind : Nat) (key : Word) (perform : State → Except Stop (State × List RegWrite)) (s : State) : Eff :=
  match s.me.fromLog kind key with
  | some (some e) => .ok (s.takeEntry e)
  | some none => diverge s
  | none =>
    match perform s with
    | .error e => .error e
    | .ok (s', ws) =>
      match s'.record (Effect.of kind s.me key ws) with
      | .error e => .error e
      | .ok s'' => .ok (s''.setRegs (s''.regs.writes ws))

/-- The issue of an instruction with the departures of replay checked first (R225). -/
def issueLogged (i : Instr) (core : State → Eff) (s : State) : Host.Outcome State Fault Refusal :=
  issue i (fun s => if diverges i s.me then diverge s else core s) s

end Sys2Proof.Machine
end

