-- ==== Sys2Proof/Machine/Boundary.lean ====
section
/-!
DEFINITION. The boundary (R41, R42): its waits, the check and the credit of the group's deliveries (R45, R46, R144, R181),
the section of the stint record (R178), the registers it zeroes (R43), and what the partner barn's acceptance brings
(R135, R150, R224).
-/

namespace Sys2Proof.Machine

/-! ### Registers across a boundary -/

/-- The registers after a boundary (R42, R43): what lies outside the carry set reads zero, STINTNO rises. -/
def Regs.crossed (r : Regs) (carryS : Word) (carryV : Nat) : Regs :=
  { r with
    s := r.s.filter fun p => carryS.getLsbD p.1
    v := r.v.filter fun p => p.1 < 32 * carryV
    flmask := 0, tcause := 0, taddr := 0, tpc := 0, await := 0, psn := false, ovf := false, balepa := 0
    stintno := r.stintno + 1 }

def Parcel.isItem : Parcel → Bool
  | .item .. => true
  | _ => false

/-- The items a group has staged. -/
def Group.stagedItems (g : Group) : Nat := ((g.deliveries.flatMap Delivery.parts).filter Parcel.isItem).length

/-- The parts of a group's deliveries with the gangs they are bound to. -/
def Delivery.boundParts (d : Delivery) : List (Nat × Parcel) := d.bound.zip d.parts

/-! ### The credit step -/

/-- The logical stalls whose spill areas feed a stall's item queue: its own and those of the stalls it hosts, whose records
stay with their own numbers (R142, R227). -/
def State.feeders (s : State) (stall : Nat) : List Nat := (kkeys s.stalls).filter fun t => s.hostOf t = stall
/-- The items in those spill areas. -/
def State.spilled (s : State) (stall : Nat) : List Item := (s.feeders stall).flatMap fun t => (s.stall t).spill

/-- The room the credit step needs in the item queue and the spill area, where other groups' sections hold reservations
(R144, R224). -/
def State.itemRoom (s : State) (stall n : Nat) : Bool :=
  let st := s.stall stall
  let reserved := (s.groups.map fun p =>
    match p.2.stage42 with
    | .sectionSent _ => if p.1 ≠ s.cur ∧ s.hostOf (s.gang (gangOf p.1)).stall = stall then p.2.stagedItems else 0
    | _ => 0).sum
  n = 0 || st.itemq.length + (s.stall s.myStall).spill.length + reserved + n ≤ 256 + 4096

/-- Deliveries whose boundaries have been credited, or whose sections wait for acceptance with their commits held, and that
have still to enter their gangs' intake logs: each with its gang (R45, R152, R224). -/
def State.creditedParts (s : State) : List (Nat × Parcel) :=
  (s.stalls.flatMap fun t => t.2.commits.flatMap Commit.parts) ++
  (s.fetchReqs.map fun r => (r.gang, Parcel.fetchw r.off)) ++
  s.groups.flatMap fun p =>
    match p.2.stage42 with
    | .sectionSent _ => if p.1 = s.cur then [] else p.2.deliveries.flatMap Delivery.boundParts
    | _ => []

/-- The credit would take no gang's intake log beyond 1 MiB, counting the credits before it that have still to be entered
there (R181). -/
def State.intakeRoom (s : State) (g : Group) : Bool :=
  let parts := g.deliveries.flatMap Delivery.boundParts
  let all := parts ++ s.creditedParts
  parts.all fun p =>
    let new := ((all.filter fun q => q.1 = p.1).map fun q => q.2.logBytes).sum
    (s.gang p.1).intakeBytes + new ≤ 2 ^ 20

/-- The gangs whose items stand in a stall's item queue and the spill areas behind it. -/
def State.itemGangs (s : State) (stall : Nat) : List Nat :=
  (((s.stall stall).itemq ++ s.spilled stall).map Item.gang).eraseDups

/-- Every group of the gangs whose items fill the queue waits for item room in its credit, and this group began first
(R144). -/
def State.creditDeadlock (s : State) (grp : Nat) : Bool :=
  let since := fun (k : Nat) => (s.group k).waitSince.getD s.ptime
  let ks := ((s.itemGangs s.here).flatMap s.groupsOf).filter fun k => (s.group k).standing != .exited
  ks.contains grp &&
  ks.all fun k => k = grp || ((s.group k).waitSince.isSome &&
    ((since grp).toNat < (since k).toNat || (since grp = since k && grp < k)))

/-- What the item spill needs for credited items: those that will not find a place in the item queue of the stall that runs
their gang (R142, R177). -/
def State.spillNeeds (s : State) (parts : List (Nat × Parcel)) : List (Nat × Nat) :=
  let on := fun (p : Nat × Parcel) => s.hostOf (s.gang p.1).stall
  let items := parts.filter fun p => p.2.isItem
  (items.map on).eraseDups.flatMap fun t =>
    let places := if (s.spilled t).isEmpty then 256 - (s.stall t).itemq.length else 0
    ((items.filter fun p => on p = t).drop places).map fun p => ((s.gang p.1).stall, 16)

/-- The intake entries of a group's deliveries and of those credited before and not yet entered, the spill of their items, and the
group's section where it writes one, find their blocks (R177). -/
def State.blockRoom (s : State) (sec : Bool) : Bool :=
  let parts := s.creditedParts ++ s.me.deliveries.flatMap Delivery.boundParts
  s.recordRoom ((if sec then [s.sectionNeed] else []) ++ s.spillNeeds parts ++
    parts.map fun p => ((s.gang p.1).stall, p.2.logBytes))

/-- The bytes of a range of the gang's allocation. -/
def State.rangeBytes (s : State) (grp : Nat) (r : Range) : List Byte :=
  let gang := s.gang (gangOf grp)
  (s.stall (s.hostOf gang.stall)).scratch.readN (gang.scrbase + r.off) r.len

/-- The section of a boundary (R42, R178): the registers given, the bytes of the carry ranges. -/
def State.sectionOf (s : State) (grp : Nat) (regs : Regs) (ric : Word) : Section :=
  let g := s.group grp
  { regs := regs, ric := ric, time := s.ptime, done := false, tags := (s.gang (gangOf grp)).tags, frames := g.frames,
    ranges := g.cranges.map fun r => (r.off, s.rangeBytes grp r) }

/-- Write a section beside the latest complete copy (R178). -/
def Group.putSection (g : Group) (sec : Section) : Group :=
  { g with sections := sec :: (g.sections.filter fun x => x.done).take 1 }

/-- The section is written, what is not carried is zeroed (R42), and the group waits for its acceptance. -/
def State.closeStint (s : State) (next : AfterSection) (npc ric : Word) : State :=
  let s := (s.mergeGroup s.cur).tallied s.here 11 1
  let g := s.me
  let r := g.r.crossed g.carryS g.carryV
  let sec := s.sectionOf s.cur { r with pc := npc } ric
  s.modMe fun g =>
    { g.putSection sec with r := r, stage42 := .sectionSent next, incomplete := none, waitSince := none, blocked := none }

/-- Mark the boundary's own effect as performed; a boundary owed from before (R214) keeps its own mark. -/
def State.markEffect (s : State) (owed : Bool) : State :=
  if owed then s else s.modMe fun g => { g with stage42 := .effectDone }

/-- A boundary whose credit fails: its own effect stands and the boundary is remembered (R214). -/
def State.leaveIncomplete (s : State) (f : Group → Group) : State :=
  s.modMe fun g => { f g with stage42 := .none, waitSince := none, incomplete := some (g.incomplete.getD g.r.pc) }

/-- The check and the credit of R42: the deliveries are in the staging area, none has failed, there is room, and the record
area has the blocks needed (R177), the section's among them where one is written; a store that failed at its home is
reported first (R247). -/
def credit (owed sec : Bool) (s : State) : Except Stop Unit :=
  let g := s.me
  if g.ld ≠ 0 || g.st ≠ 0 || !g.zlr.isEmpty || g.deliveries.any (fun d => !d.checked) then
    .error (.holdKeep none (s.markEffect owed))
  else if g.storeFault.isSome then
    .error (.trapKeep (Trap.whole .poison (g.storeFault.getD 0)) (s.leaveIncomplete fun g => { g with storeFault := none }))
  else
    match g.deliveries.findSome? Delivery.failed with
    | some addr =>
      .error (.trapKeep (Trap.whole .scrBounds addr)
        (s.leaveIncomplete fun g => { g with deliveries := g.deliveries.filter fun d => d.failed.isNone }))
    | none =>
      let waits := fun (since : Option Word) => (s.markEffect owed).modMe fun g => { g with waitSince := since }
      if !s.itemRoom s.here g.stagedItems then
        if s.creditDeadlock s.cur then .error (.trapKeep (Trap.whole .deadlock 0) (s.leaveIncomplete id))
        else .error (.holdKeep (some .credit) (waits (some (g.waitSince.getD s.ptime))))
      else if !s.intakeRoom g then .error (.holdKeep (some .credit) (waits none))
      else if !s.blockRoom sec then .error (.holdKeep none (waits none))
      else .ok ()

/-! ### A boundary instruction -/

/-- The group's own effect is on its way: it was sent after the waits of its boundary (R42, R93). -/
def Group.sent (g : Group) : Bool := g.ops.any fun o => o.kind.errand

/-- The group's release has completed with an error for a store of its own, before the boundary's own effect (R247). -/
def Group.releaseFails (g : Group) : Bool :=
  g.storeFault.isSome && !g.sent && g.stage42 != .effectDone && g.incomplete.isNone
/-- The error is reported as POISON at the releasing instruction, which performs nothing (R214, R247). -/
def State.reportStore (s : State) : Eff :=
  .error (.trapKeep (Trap.whole .poison (s.me.storeFault.getD 0)) (s.modMe fun g => { g with storeFault := none }))

/-- A boundary instruction (R42): the waits, a boundary left incomplete before it (R214), its own effect, and the rest. -/
def boundary (own : State → Eff) (next : AfterSection) (s : State) : Eff :=
  let g := s.me
  let finish := fun (s : State) =>
    match credit false true s with
    | .error e => (.error e : Eff)
    | .ok _ => .ok (s.closeStint next s.me.succ (s.me.ric + 1))
  if g.r.serial then trapNow .illegalOp
  else if !g.sent && (g.ld ≠ 0 || g.st ≠ 0 || !g.zlr.isEmpty) then holdNow
  else if g.releaseFails then s.reportStore
  else if g.stage42 = .effectDone then finish s
  else
    match g.incomplete with
    | some pc =>
      if pc = g.r.pc then finish s
      else
        match credit true true s with
        | .error e => .error e
        | .ok _ => .error (.holdKeep none (s.closeStint .issue g.r.pc g.ric))
    | none =>
      match own s with
      | .error e => .error e
      | .ok s' => finish s'

/-- A release alone (R126, R318): the waits of the boundary have performed it. -/
def ownRelease (s : State) : Eff := .ok s

/-- The reply held for the boundary instruction at which the group stands (R224). -/
def Group.held? (g : Group) : Option (List RegWrite) :=
  g.heldReply.bind fun p => if p.1 = g.r.pc then some p.2 else none

/-- Take the reply of a boundary's own effect, which the barn holds with the section (R224). -/
def Group.takeReply (g : Group) (ws : List RegWrite) : Group :=
  { g with r := g.r.writes ws, heldReply := some (g.r.pc, ws) }

/-- An own effect performed outside the stall (R224): its reply is held with the section, and taken when replay brings
the group back to the instruction. -/
def outside (perform : State → Except Stop (State × List RegWrite)) (s : State) : Eff :=
  let g := s.me
  match g.held? with
  | some ws => .ok (s.setRegs (g.r.writes ws))
  | none =>
    match perform s with
    | .error e => .error e
    | .ok (s', ws) => .ok (s'.modMe fun g => g.takeReply ws)

/-! ### Acceptance of a section (R224) -/

/-- The RIC of each of a gang's sixteen groups, the stamp of an intake entry (R181). -/
def State.stampOf (s : State) (gang : Nat) : List Word :=
  (List.range 16).map fun n =>
    match s.group? (groupKey gang n) with
    | some g => if g.standing = .exited then 0 else g.ric
    | none => 0

/-- Enter a part in the receiving gang's intake log (R181), an item with its number. -/
def State.logIntake (s : State) (gang : Nat) (p : Parcel) (seq : Nat := 0) : State :=
  let e : Intake := { parcel := p, time := s.ptime, seq := seq, stamp := s.stampOf gang, taker := none, imaged := false }
  s.modGang gang fun g => { g with intake := g.intake ++ [e] }

/-- A credited item enters the item queue, or the spill area when the queue is full or items are spilled already (R142). -/
def State.enterItem (s : State) (grp : Nat) (pc payload : Word) (stage : Nat) : State :=
  let gang := gangOf grp
  let stall := s.hostOf (s.gang gang).stall
  let it : Item := { pc := pc, payload := payload, gang := gang, stage := stage, seq := s.nextItem }
  let s := { s.logIntake gang (.item pc payload stage) s.nextItem with nextItem := s.nextItem + 1 }
  let own := (s.gang gang).stall
  if (s.stall stall).itemq.length < 256 && (s.spilled stall).isEmpty then
    s.modStall stall fun st => { st with itemq := st.itemq ++ [it] }
  else s.modStall own fun st => { st with spill := st.spill ++ [it] }

/-- The stall that a part addresses. -/
def Parcel.stall? : Parcel → Option Nat
  | .bytes t _ _ => some t
  | .count t _ _ => some t
  | _ => none

/-- Release one delivery of an accepted boundary (R45, R152): items enter their queue, requests go to the distributor,
the rest go to the receiving stall in order. -/
def State.release (s : State) (grp : Nat) (d : Delivery) : State :=
  match d.parts with
  | [.item pc payload stage] => s.enterItem grp pc payload stage
  | [.fetchw off] => { s with fetchReqs := s.fetchReqs ++ [{ gang := gangOf grp, off := off }] }
  | parts =>
    match parts.findSome? Parcel.stall? with
    | none => s
    | some t =>
      s.modStall (s.hostOf t) fun st =>
        { st with commits := st.commits ++ [{ parts := d.boundParts }] }

/-- Publication promises an entry of the record's output queue when one is free (R150). A malformed queue changes nothing and
raises POISON, which the publishing group takes at its next issue (R148). DESIGN CHOICE (log 68): a queue that does not
translate gets no promise. -/
def State.promise (s : State) (grp stall : Nat) (task : Word) (rec : Nat) : State :=
  let outq := s.wordAt rec 5
  if outq = 0 then s
  else
    match s.structLoc stall outq 64 with
    | none => s
    | some q =>
      let cap := ((s.wordAt q 0).extractLsb' 0 32).toNat
      let tail := s.wordAt q 2
      if !s.queueOk q then s.modGroup grp fun g => { g with deny := some (.poison, 0xFFFFFFFF, outq) }
      else if (tail - s.wordAt q 1).toNat < cap then
        match s.entryLoc stall outq (tail.toNat % cap) with
        | none => s
        | some e =>
          let s := s.setWordAt e 0 0
          let s := s.setWordAt e 1 (1#64 ||| (task &&& ~~~63#64))
          let s := s.setWordAt q 2 (tail + 1)
          s.setWordAt rec 6 tail
      else s

/-- Publication of a record written by TASK (R135, R150), and the request for a group of its own (R384). -/
def State.publish (s : State) (grp : Nat) (task : Word) (run : Bool) : State :=
  let stall := s.hostOf (s.gang (gangOf grp)).stall
  match s.structLoc stall task 128 with
  | none => s
  | some rec =>
    let s := s.promise grp stall task rec
    if run && recVneed (s.wordAt rec 3) ≤ (s.group grp).vbudget then
      let need := ((s.wordAt rec 4).extractLsb' 0 19).toNat
      let q : RunReq := { task := task, stage := (s.group grp).stage, need := need, order := s.nextReq }
      { s.modGang (gangOf grp) fun g => { g with runReqs := g.runReqs ++ [q] } with nextReq := s.nextReq + 1 }
    else s

/-- A command of the plane-array queue (R153). -/
def CmdKind.plane : CmdKind → Bool
  | .mloop .. => true
  | .mdrain .. => true
  | .mclr .. => true
  | _ => false

/-- The images of a gang's banks hold what a command did (R333). -/
def Gang.covered (g : Gang) (id : Nat) : Bool := id < g.imaged || g.covers.contains id

/-- An entry stays while its operation is outstanding; one of the plane array until an image covers it (R182, R333). -/
def Effect.outstanding (e : Effect) (g : Gang) : Bool :=
  e.kind = 4 && (!e.complete || e.cmd.any fun c => c.kind.plane && !g.covered c.id)

/-- Trim a group's effect log to the entries of operations still outstanding (R182); nothing is trimmed while the gang
restarts (R222). -/
def Group.trimEffects (g : Group) (gang : Gang) : Group :=
  if gang.phase = .running then { g with effects := g.effects.filter fun e => e.outstanding gang } else g

/-- The section a restart uses: the latest complete copy (R178). -/
def Group.lastSection (g : Group) : Option Section := g.sections.find? fun x => x.done

/-- The latest section is complete at a panel time (R178). -/
def Group.completeSection (g : Group) (time : Word) : Group :=
  match g.sections with
  | sec :: rest => { g with sections := { sec with done := true, time := time } :: rest }
  | [] => g

/-- The record entries of items that a group has taken, once a section of it covers the taking (R425). -/
def Gang.coverItems (g : Gang) (grp : Nat) : Gang :=
  if g.phase = .running then { g with intake := g.intake.filter fun e => e.taker != some grp } else g

end Sys2Proof.Machine
end

