-- ==== Sys2Proof/Machine/Adopt.lean ====
section
/-!
DEFINITION. Adoption of tasks (R47, R86, R135, R188, R384 to R386), the waits on tasks and their probes (R48, R176), and the
acceptance of a section by the partner barn (R42, R224).
-/

namespace Sys2Proof.Machine

/-- Act as a group, and give the turn back. -/
def State.asGroup (s : State) (grp : Nat) (f : State → State) : State := { f { s with cur := grp } with cur := s.cur }

/-! ### Who may adopt what -/

/-- A launch under a pre-emption request in force (R208, R209). -/
def State.preempted (s : State) (lid : BitVec 32) : Bool := s.preempt.any fun p => p.go && p.force && p.launch = lid

/-- The gang's task area: SCRSIZE less the highest end of any carry or receive range of its roles (R384). -/
def State.taskArea (s : State) (gang : Nat) : Nat :=
  let ends := (s.launch (lidOf gang)).roles.flatMap fun r => (r.cranges ++ r.rranges).map fun x => x.off + x.len
  (s.gang gang).scrsize - ends.foldl max 0

/-- SNEED fits beside the gang's running and parked tasks (R384). -/
def State.needFits (s : State) (gang : Nat) (task : Word) (need : Nat) : Bool :=
  let held := ((s.gang gang).reserved.filter fun p => p.1 != task).map Prod.snd
  held.sum + need ≤ s.taskArea gang

/-- Reserve the bytes of a task (R384). -/
def State.reserveTask (s : State) (gang : Nat) (task : Word) (need : Nat) : State :=
  s.modGang gang fun g => { g with reserved := (g.reserved.filter fun p => p.1 != task) ++ [(task, need)] }

/-- A record that another group has written and not yet published (R135). -/
def State.unpublished (s : State) (task : Word) : Bool :=
  s.groups.any fun p => p.1 ≠ s.cur && p.2.tasks.any fun t => t.1 = task

/-- The group that holds a parked task. -/
def State.parkedHolder (s : State) (task : Word) : Option Nat :=
  (s.groups.find? fun p =>
    p.2.r.taskId = task && (match p.2.standing with | .parked _ => true | .woken => true | _ => false)).map Prod.fst

def recSneed (w4 : Word) : Nat := (w4.extractLsb' 0 19).toNat

/-- A gang holds what its parked groups need: it has not lost its stall and is not about to end (R219, R226). -/
def Gang.holds (g : Gang) : Bool := g.phase = .running || g.phase = .replay || g.phase = .imaged

/-- Adoption of the task at a record is allowed for the issuing group (R47, R135, R209, R226, R280). -/
def State.mayAdopt (s : State) (task : Word) (rec : Nat) : Bool :=
  let g := s.me
  let w3 := s.wordAt rec 3
  let st := recState w3
  (st = 0 || st = 2) && recVneed w3 ≤ g.vbudget && s.needFits (gangOf s.cur) task (recSneed (s.wordAt rec 4)) &&
  g.r.depth.toNat < 4 && !g.r.serial && !s.unpublished task && !s.preempted (lidOf (gangOf s.cur)) &&
  (st = 0 || (!s.preempted (recLaunch w3) && (s.parkedHolder task).all fun h => (s.gang (gangOf h)).holds))

/-- RSTALL and RSLOT of a record's word 10 (R174). -/
def rWord (stall slot : Nat) : Word := BitVec.ofNat 64 (stall % 2 ^ 17 * 2 ^ 16 + slot % 16 * 2 ^ 33)

/-- The claim (R386 step 1): STATE to running with the adopter's place, and the reservation, held for its return. -/
def State.claimTask (s : State) (task : Word) (rec : Nat) : State :=
  let w3 := s.wordAt rec 3
  let w10 := s.wordAt rec 10
  let need := recSneed (s.wordAt rec 4)
  let new := if (s.gang (gangOf s.cur)).reserved.any (fun p => p.1 = task) then 0 else need
  let s := s.setRecord rec 1 0
  let s := s.setWordAt rec 10 (rWord s.myStall s.me.slot)
  let s := s.reserveTask (gangOf s.cur) task need
  s.modMe fun g => { g with claim := some (task, recState w3, w10, new) }

/-- The return of the issuing group's claim, whose boundary fails (R386). -/
def State.returnClaim (s : State) : State := s.undoClaim s.cur

/-- The boundary of an adoption entry (R188, R386): it names the waiting instruction as next PC and does not retire. -/
def adoptionEntry (task : Word) (s : State) : Eff :=
  let g := s.me
  if g.ld ≠ 0 || g.st ≠ 0 || g.cp ≠ 0 || g.tl ≠ 0 then .error (.holdKeep none s)
  else
    match credit false true s with
    | .error (.trapKeep t k) => .error (.trapKeep t k.returnClaim)
    | .error (.trap t) => .error (.trapKeep t s.returnClaim)
    | .error e => .error e
    | .ok _ => .error (.holdKeep none (s.closeStint (.adopt task) g.r.pc g.ric))

/-- Adopt the task at a record: the claim and the first part of its boundary (R386). -/
def adopt (task : Word) (rec : Nat) (s : State) : Eff := adoptionEntry task (s.claimTask task rec)

/-- The stage of an adoption entry whose claim has failed: its section stands, and the waiting instruction is tried again. -/
def BoundaryStage.unclaimed : BoundaryStage → BoundaryStage
  | .sectionSent (.adopt _) => .sectionSent .issue
  | .effectDone => .none
  | st => st

/-- With the loss of the stall that holds a parked task, an adoption claim on it fails (R226): what it wrote is returned, and its
claimant waits again. -/
def State.failClaims (s : State) (gang : Nat) : State :=
  let ks := (s.groups.filter fun p =>
    p.2.claim.any fun c => c.2.1 = 2 && (s.parkedHolder c.1).any fun h => gangOf h = gang).map Prod.fst
  ks.foldl (fun s k => (s.undoClaim k).modGroup k fun g => { g with stage42 := g.stage42.unclaimed }) s

/-! ### Waits on tasks (R48, R176) -/

/-- Publish what the group awaits, and send a probe along the chain (R48, R176). -/
def State.publishWait (s : State) (target : Word) : State :=
  let g := s.me
  if g.r.await = target then s
  else
    let s := s.modMe fun g => { g with r := { g.r with await := target }, probing := target ≠ 0 }
    if g.r.taskId = 0 then s
    else
      match s.structLoc s.here g.r.taskId 128 with
      | none => s
      | some rec => (s.setWordAt rec 7 target).setWordAt rec 8 (if target = 0 then 0 else s.ptime)

/-- The wait has ended: AWAIT, WAITON and WAITT are zeroed (R176, R385). -/
def State.endWait (s : State) : State :=
  (s.publishWait 0).modMe fun g => { g with probing := false }

/-- What a probe finds (R176). -/
inductive ProbeEnd where
  | deadlock | ended | limit
  deriving DecidableEq, Repr

/-- The greater of two (WAITT, record) pairs (R176). -/
def laterOf (a b : Nat × Nat) : Nat × Nat := if a.1 < b.1 || (a.1 = b.1 && a.2 < b.2) then b else a

/-- The links a probe follows (R176). -/
def State.probeLinks (s : State) (stall : Nat) (own : Word) (me : Nat × Nat) :
    Nat → Word → Nat × Nat → ProbeEnd
  | 0, t, _ => if t = 0 then .ended else .limit
  | k + 1, t, top =>
    if t = 0 then .ended
    else if t = own then (if top = me then .deadlock else .ended)
    else
      match s.structLoc stall t 128 with
      | none => .ended
      | some rec =>
        s.probeLinks stall own me k (s.wordAt rec 7) (laterOf top ((s.wordAt rec 8).toNat, t.toNat))

/-- The probe of a group that awaits a task (R176). -/
def State.probe (s : State) (grp : Nat) : ProbeEnd :=
  let g := s.group grp
  let stall := s.hostOf (s.gang (gangOf grp)).stall
  let waitt := match s.structLoc stall g.r.taskId 128 with
    | some rec => (s.wordAt rec 8).toNat
    | none => 0
  let me := (waitt, g.r.taskId.toNat)
  if g.r.taskId = 0 then s.probeLinks stall 0 me 256 g.r.await me
  else s.probeLinks stall g.r.taskId me 256 g.r.await me

/-- PROBE_RESULT: the chain ended, or it closed a cycle at this group (R48). -/
def execProbeResult (grp : Nat) (s : State) : Host.Outcome State Fault Refusal :=
  let g := s.group grp
  if g.probing && g.standing = .slot then
    match s.probe grp with
    | .limit => idle s
    | .ended => happens (s.modGroup grp fun g => { g with probing := false })
    | .deadlock =>
      happens (s.asGroup grp fun s =>
        let t := g.r.await
        (s.endWait.modMe fun g => { g with blocked := none }).takeException false (Trap.whole .deadlock t))
  else idle s

/-- PROBE_LINK_LIMIT: the probe passed 256 links and ends (R48). -/
def execProbeLinkLimit (grp : Nat) (s : State) : Host.Outcome State Fault Refusal :=
  when ((s.group grp).probing && s.probe grp = .limit) s (s.modGroup grp fun g => { g with probing := false })

/-! ### Running an adopted task -/

/-- The start state of a task (R33, R86) at a depth, in the registers of the group that runs it. -/
def State.taskStart (s : State) (task : Word) (rec : Nat) (depth : Nat) : Regs :=
  let pc := s.wordAt rec 0
  { Regs.zero.setS 1 (s.wordAt rec 1) with
    pc := pc, taskId := task, launchId := recLaunch (s.wordAt rec 3), depth := BitVec.ofNat 3 depth, tvec := s.fwTvec }

/-- The engine commands of one group count for another from now on, wherever they are queued or run (R153, R187, R386): they
precede what that group issues next. So do those kept for a restart of the gang that issued them (R223). -/
def State.rename (s : State) (old new : Nat) : State :=
  let f := fun (c : Cmd) => if c.grp = old then { c with grp := new, ric := (s.group new).ric } else c
  { s with
    stalls := s.stalls.map fun p => (p.1, { p.2 with cartq := p.2.cartq.map f, planeq := p.2.planeq.map f })
    gangs := s.gangs.map fun p => (p.1, { p.2 with held := p.2.held.map fun c => (f c.1, c.2) })
    stables := s.stables.map fun p =>
      (p.1, { p.2 with groomq := p.2.groomq.map f, jobs := p.2.jobs.map fun j => { j with cmd := f j.cmd } }) }

/-- A group whose parked task has been adopted elsewhere: its own group ends; an adopter goes back to its frame and
waits for the task there. -/
def Group.vacated (g : Group) (task : Word) : Group :=
  let g := { g with ops := [], ld := 0, st := 0, cp := 0, tl := 0, deliveries := [], tasks := [], stage42 := .none,
                    incomplete := none, zlr := [], walk := none,
                    effects := g.effects.filter fun e => !(e.kind = 4 && !e.complete) }
  match g.frames with
  | [] => { g with standing := .exited, locks := [] }
  | f :: rest =>
    { g with r := f.regs, frames := rest, openCmds := [], batches := f.batches, standing := .parked (.future task),
             locks := g.locks.filter fun p => p.2 != (task ||| 1#64) }

/-- The group that held a parked task has left it: it waits in its frame, or it has exited (R39). A task that another gang
adopts takes no room in the former one (R384). -/
def State.leaveHolder (s : State) (task : Word) (holder : Nat) : State :=
  let s := s.modGroup holder fun g => g.vacated task
  let s := s.modStall (s.stallOf holder) fun st => { st with wakes := st.wakes.filter (· != holder) }
  let s := if gangOf holder = gangOf s.cur then s
    else s.modGang (gangOf holder) fun g => { g with reserved := g.reserved.filter fun p => p.1 != task }
  if (s.group holder).standing = .exited then s.readyBins (gangOf holder) else s

/-- The adopter takes over a parked task: its registers and its outstanding operations (R85, R187). -/
def State.takeParked (s : State) (task : Word) (holder : Nat) (depth : BitVec 3) : State :=
  let p := s.group holder
  let held := p.locks.filter fun q => q.2 = (task ||| 1#64)
  let s := (s.leaveHolder task holder).rename holder s.cur
  s.modMe fun g =>
    { g with r := { p.r with depth := depth }, ld := p.ld, st := p.st, cp := p.cp, tl := p.tl, ops := p.ops,
             openCmds := p.openCmds, batches := p.batches, locks := g.locks ++ held,
             effects := g.effects ++ ((p.effects.filter fun e => e.kind = 4 && !e.complete).map fun e =>
               { e with ric := g.ric, cmd := e.cmd.map fun c => { c with grp := s.cur, ric := g.ric } }),
             transferFrom := none,
             deliveries := p.deliveries, tasks := p.tasks, stage42 := p.stage42, incomplete := p.incomplete,
             zlr := p.zlr, walk := p.walk }

/-- With the frame saved, a restart resumes at the task's start: the entry's section names it (log 19). -/
def Group.coverStart (g : Group) : Group :=
  match g.sections with
  | sec :: rest => { g with sections := { sec with regs := g.r, frames := g.frames } :: rest }
  | [] => g

/-- The records of a gang lay in a barn beyond rebuilding: the gang that needs one ends with POISON (R231). -/
def State.recordsDead (s : State) (gang : Nat) : Bool :=
  (s.gang gang).recordBad || (s.barn (partnerBarn (stableOf (s.gang gang).stall))).dead

/-- The adopted task begins to run (R47, R85, R86, R386 steps 3 and 4); the start is an acquire (R112, R135). A parked task whose
park record cannot be read ends the adopter's gang, which needs it (R231). -/
def State.startAdopted (s : State) (task : Word) : State :=
  let g := s.me
  let former := match g.claim with | some (_, st, _, _) => st | none => 0
  if former = 2 && (s.parkedHolder task).any fun h => s.recordsDead (gangOf h) then
    s.endGang (gangOf s.cur) Cause.poison.code 0 s.cur
  else
    let depth := g.r.depth.toNat + 1
    let frame : Frame := { regs := g.r, batches := g.batches }
    let s := s.modMe fun g => { g with frames := frame :: g.frames, claim := none, stage42 := .none, batches := [],
                                       openCmds := [] }
    let s' :=
      match s.structLoc s.here task 128 with
      | none => s
      | some rec =>
        match (if former = 2 then s.parkedHolder task else none) with
        | some holder => (s.takeParked task holder (BitVec.ofNat 3 depth)).setWordAt rec 9 0
        | none => s.modMe fun g => { g with r := s.taskStart task rec depth, transferFrom := some 0 }
    ((s'.modMe Group.coverStart).tallied s.here 12 1).acquireAt s.here

/-- Adoption exit (R47, R188): the frame is restored, its section is written with the waiting instruction as next PC. A frame
that cannot be read ends the gang (R231). -/
def State.leaveTask (s : State) (ric : Word) : State :=
  let s := (s.mergeGroup s.cur).tallied s.here 11 1
  match s.me.frames with
  | [] => s
  | f :: rest =>
    if s.recordsDead (gangOf s.cur) then s.endGang (gangOf s.cur) Cause.poison.code 0 s.cur else
    let r := { f.regs with stintno := f.regs.stintno + 1 }
    let s := s.modMe fun g => { g with frames := rest }
    let sec := s.sectionOf s.cur r ric
    s.modMe fun g =>
      { g.putSection sec with r := r, batches := f.batches, openCmds := [], succ := r.pc, transferFrom := none,
                              stage42 := .sectionSent .issue, incomplete := none, blocked := none, waitSince := none }

/-- A faulted task's group takes its adoption exit once the task's own operations have ended (R49, R188). -/
def State.finishLeaving (s : State) : State :=
  let g := s.me
  if g.ld = 0 && g.st = 0 && g.cp = 0 && g.tl = 0 then { s.leaveTask g.ric with last := .event, tried := [] }
  else s.hold none false

/-! ### Acceptance -/

/-- The partner barn accepts a section (R42, R224): DONE is set, the commits are released, records are published, logs
are trimmed, and the group goes on. -/
def State.acceptSection (s : State) (grp : Nat) (next : AfterSection) : State :=
  let g := s.group grp
  let gk := gangOf grp
  let s := s.modGroup grp fun g =>
    { (g.completeSection s.ptime).trimEffects (s.gang gk) with
      heldReply := none, deliveries := [], tasks := [], stage42 := .none }
  let s := s.modGang gk fun x => x.coverItems grp
  let s := g.deliveries.foldl (fun s d => s.release grp d) s
  let s := g.tasks.foldl (fun s t => s.publish grp t.1 t.2) s
  match next with
  | .issue => s
  | .gbar => s.modGroup grp fun g => { g with stage42 := .gbar, gbars := g.gbars + 1 }
  | .adopt task => s.asGroup grp fun s => s.startAdopted task

/-- SECTION_ACCEPT (R42). -/
def execSectionAccept (grp : Nat) (s : State) : Host.Outcome State Fault Refusal :=
  match (s.group grp).stage42 with
  | .sectionSent next => happens (s.acceptSection grp next)
  | _ => idle s

end Sys2Proof.Machine
end

