-- ==== Sys2Proof/Machine/Flags.lean ====
section
/-!
DEFINITION. Conditions (R260): the panel keeps no flag register, so these are its only flag computations.
-/

namespace Sys2Proof.Machine

/-- COND on two integers (R260); UN and ORD are refused before. -/
def condInt (cond : Nat) (a b : Int) : Bool :=
  match cond with
  | 0 => a = b
  | 1 => a != b
  | 2 => a < b
  | 3 => a ≤ b
  | 4 => b < a
  | 5 => b ≤ a
  | _ => false

/-- COND on two floats (R260): −0 equals +0, and a NaN makes the comparison unordered. -/
def condNum (cond : Nat) (a b : Number) : Bool :=
  let un := a.isNan || b.isNan
  match cond with
  | 0 => !un && Number.eqv a b
  | 1 => un || !Number.eqv a b
  | 2 => Number.lt a b
  | 3 => !un && !Number.lt b a
  | 4 => Number.lt b a
  | 5 => !un && !Number.lt a b
  | 6 => un
  | _ => !un

end Sys2Proof.Machine
end

