-- ==== Sys2Proof/Machine/Alu.lean ====
section
/-!
DEFINITION. The integer operations of the scalar unit (R271 to R274) and of the vector unit (R296 to R299), as functions
of n-bit patterns, each said once for both.
-/

namespace Sys2Proof.Machine

/-- A bit pattern's n-bit two's-complement complement (the NOT of ANDN). -/
def notN (n x : Nat) : Nat := 2 ^ n - 1 - x % 2 ^ n

/-- SHL, SHR, SAR at width n with an unbounded count (R272, R297). -/
def shlN (n a t : Nat) : Nat := if t < n then (a % 2 ^ n) <<< t % 2 ^ n else 0
def shrN (n a t : Nat) : Nat := if t < n then (a % 2 ^ n) >>> t else 0
def sarN (n a t : Nat) : Nat :=
  if t < n then wrapInt n (sext a n / 2 ^ t) else if (a % 2 ^ n).testBit (n - 1) then 2 ^ n - 1 else 0
/-- ROL and ROR (R272). -/
def rolN (n a t : Nat) : Nat :=
  let k := t % n
  let x := a % 2 ^ n
  (x <<< k ||| x >>> (n - k)) % 2 ^ n
def rorN (n a t : Nat) : Nat := rolN n a (n - t % n)

/-- Zero bits above the highest 1, n at zero (R271, R298). -/
def clzN (n a : Nat) : Nat := let x := a % 2 ^ n; if x = 0 then n else n - 1 - Nat.log2 x
/-- Zero bits below the lowest 1, n at zero. -/
def ctzN (n a : Nat) : Nat := ((List.range n).find? fun i => a.testBit i).getD n
/-- The number of 1 bits. -/
def popN (n a : Nat) : Nat := ((List.range n).filter fun i => a.testBit i).length
/-- Bit i takes bit n − 1 − i. -/
def brevN (n a : Nat) : Nat :=
  (List.range n).foldl (fun r i => if a.testBit (n - 1 - i) then r ||| 2 ^ i else r) 0
/-- Position of the lowest 1, counted from 1, 0 at zero (R298). -/
def ffsN (n a : Nat) : Nat := if a % 2 ^ n = 0 then 0 else ctzN n a + 1

/-- The length m' of the field of BFX, BFXS, BFI, VBFX and VBFI (R274, R299). -/
def fieldLen (n ctl : Nat) : Nat := min (ctl / 256 % 256) (n - ctl % 256)
/-- The field of a pattern, read with or without sign (R274, R299). -/
def bfxN (signed : Bool) (n a ctl : Nat) : Nat :=
  let m := fieldLen n ctl
  let x := (a % 2 ^ n) >>> (ctl % 256) % 2 ^ m
  if m = 0 then 0 else if signed then wrapInt n (sext x m) else x
/-- The low bits of a inserted into c (R274, R299). -/
def bfiN (n a ctl c : Nat) : Nat :=
  let m := fieldLen n ctl
  let p := ctl % 256
  if m = 0 then c % 2 ^ n
  else
    let hole := (2 ^ m - 1) <<< p
    ((c % 2 ^ n) - ((c % 2 ^ n) &&& hole) ||| (a % 2 ^ m) <<< p) % 2 ^ n

/-- Division truncated toward zero, and its remainder (R271, R273). -/
def divT (a b : Int) : Int := Int.tdiv a b
def remT (a b : Int) : Int := Int.tmod a b

/-- The value written to a scalar register: EXT(r mod 2ⁿ, n) as 64 bits (R54, R271). -/
def toScalar (t : ETy) (r : Int) : BitVec 64 := BitVec.ofInt 64 (extTy t (wrapInt t.bits r))

/-! ### Elements of a lane (R53, R54) -/

/-- Element e of width n of a lane's bits. -/
def elem (n e : Nat) (x : Nat) : Nat := x >>> (n * e) % 2 ^ n
/-- A lane's bits from its elements, element 0 lowest. -/
def packElems (n : Nat) (es : List Nat) : Nat := es.foldr (fun x acc => x % 2 ^ n + acc * 2 ^ n) 0
/-- The number of elements of width n in a lane (R290). -/
def elemCount (n : Nat) : Nat := if n ≤ 32 then 32 / n else 1
/-- Apply an element operation across a lane (or a 64-bit pair) (R290). -/
def mapElems (n : Nat) (f : Nat → Nat → Nat → Nat) (a b c : Nat) : Nat :=
  packElems n ((List.range (elemCount n)).map fun e => f (elem n e a) (elem n e b) (elem n e c))

end Sys2Proof.Machine
end

