-- ==== Sys2Proof/Machine/Access.lean ====
section
/-!
DEFINITION. What every memory instruction shares: one lane's checked access (R312), the bytes a group has stored and not
yet seen granted (R123), the performing of a load (R119, R120), the counting of operations (R187), and operations that
hold their group until an answer returns (R93, R207).
-/

namespace Sys2Proof.Machine

/-! ### Operations counted in LD and ST (R187) -/

/-- A group's counters and operations with one operation more. -/
def Group.pushOp (g : Group) (op : Op) : Group :=
  { g with ld := if op.counted && op.countsLd then g.ld + 1 else g.ld,
           st := if op.counted && !op.countsLd then g.st + 1 else g.st, ops := g.ops ++ [op] }

/-- The counters of a group once an operation has ended. -/
def Group.uncount (g : Group) (op : Op) : Group :=
  { g with ld := if op.counted && op.countsLd then g.ld - 1 else g.ld,
           st := if op.counted && !op.countsLd then g.st - 1 else g.st }

/-- Give an operation to the issuing group, under the next number. -/
def State.pushOp (s : State) (op : Op) : State :=
  { s.modMe fun g => g.pushOp { op with seq := s.nextOp } with nextOp := s.nextOp + 1 }

/-- Enter an operation counted in LD; one above 63 waits at issue. -/
def pushLd (op : Op) (s : State) : Eff :=
  if 63 ≤ s.me.ld then holdNow else .ok (s.pushOp { op with counted := true, countsLd := true })

/-- Enter an operation counted in ST. -/
def pushSt (op : Op) (s : State) : Eff :=
  if 63 ≤ s.me.st then holdNow else .ok (s.pushOp { op with counted := true, countsLd := false })

/-- An operation of a kind with its registers, counted in neither. -/
def Op.make (kind : OpKind) (ty : ETy) (dst : List RegName) (accs : List Acc) (result : List RegWrite) : Op :=
  { kind := kind, ty := ty, counted := false, countsLd := true, dst := dst, accs := accs, got := [], performed := true,
    result := result, seq := 0 }

/-- An operation whose register writes are known at issue and made later. -/
def Op.taken (dst : List RegName) (result : List RegWrite) : Op := Op.make .taken .n32 dst [] result

/-! ### Values -/

/-- A loaded element in a 32-bit lane (R313). -/
def loadValue (t : ETy) (x : Nat) : Nat := if t.bits < 32 && t.signed then wrapInt 32 (extTy t x) else x

/-- The register writes of a lane's value of a type (R54). -/
def laneWrites (t : ETy) (dst l x : Nat) : List RegWrite :=
  if t.bits = 64 then [.v dst l (BitVec.ofNat 32 x), .v (dst + 1) l (BitVec.ofNat 32 (x / 2 ^ 32))]
  else [.v dst l (BitVec.ofNat 32 x)]

/-- The register writes of loaded elements: a scalar destination is extended to 64 bits (R54, R314). DESIGN CHOICE (log 83):
R54 names the signed and the unsigned formats; an element of a floating-point format that is narrower than the register is
extended with zeros (toScalar). -/
def loadWrites (t : ETy) (dst : List RegName) (vals : List (Nat × Nat)) : List RegWrite :=
  match dst with
  | .v n :: _ => vals.flatMap fun p => laneWrites t n p.1 (loadValue t p.2)
  | .s n :: _ => vals.map fun p => .s n (toScalar t p.2)
  | _ => []

/-! ### One lane's access -/

/-- The issuing group's global access of one lane, checked (R312). -/
def State.globalAcc (s : State) (l : Nat) (va : Word) (n : Nat) (w : Want) : Except LaneFault Acc :=
  match s.checkGlobal s.here s.regs.sup va n w with
  | .error f => .error f
  | .ok p => .ok { lane := l, va := va, loc := p.loc, bytes := n, uncached := p.uncached, value := 0, compare := 0 }

/-- The same for an atomic: it reads the location at its home, so poison there is met (R102). -/
def State.atomicAcc (s : State) (l : Nat) (va : Word) (n : Nat) : Except LaneFault Acc :=
  match s.globalAcc l va n .write with
  | .error f => .error f
  | .ok a => if s.readPoison s.here a.loc n true then .error (LaneFault.plain .poison va) else .ok a

/-- An own-scratchpad access of one lane, checked. -/
def State.ownAcc (s : State) (l : Nat) (a : Word) (n : Nat) (t : Touch) : Except LaneFault Acc :=
  match s.checkOwn (gangOf s.cur) s.here a n t with
  | .error f => .error f
  | .ok off => .ok { lane := l, va := a, loc := off, bytes := n, uncached := false, value := 0, compare := 0 }

/-- The TLB fills of checked global accesses (R158). -/
def State.touchAll (s : State) (accs : List Acc) : State := accs.foldl (fun s a => s.touchTlb s.here a.va) s

/-! ### The performing of loads (R119, R120) -/

/-- The value of one access of a group through its stall's L1, its own pending bytes foremost (R120, R123). -/
def State.readAcc (s : State) (grp stall : Nat) (a : Acc) : State × Nat :=
  let p := s.loadPlain stall a.loc a.bytes a.uncached
  let g := s.group grp
  let bs := (List.range a.bytes).map fun i =>
    (g.ownByte? (a.loc + i)).getD (BitVec.ofNat 8 (p.2 / 2 ^ (8 * i)))
  (p.1, leValue bs)

/-- All accesses of a load, in ascending lane order (R113). -/
def State.readAccs (s : State) (grp stall : Nat) : List Acc → State × List (Nat × Nat)
  | [] => (s, [])
  | a :: rest =>
    let p := s.readAcc grp stall a
    let q := State.readAccs p.1 grp stall rest
    (q.1, (a.lane, p.2) :: q.2)

/-- The accesses at some positions of a list, in the order given, each read under its position (R113). -/
def State.readAt (s : State) (grp stall : Nat) (accs : List Acc) : List Nat → State × List (Nat × Nat)
  | [] => (s, [])
  | i :: is =>
    match accs[i]? with
    | none => s.readAt grp stall accs is
    | some a =>
      let p := s.readAcc grp stall a
      let q := State.readAt p.1 grp stall accs is
      (q.1, (i, p.2) :: q.2)

/-- Of some positions, those of a load's accesses that have not been performed, in ascending order. -/
def Op.unread (o : Op) (is : List Nat) : List Nat :=
  (List.range o.accs.length).filter fun i => is.contains i && !o.got.any fun p => p.1 = i

/-- The values of a load's accesses by lane, once all have been read. -/
def Op.values (o : Op) : List (Nat × Nat) :=
  (List.range o.accs.length).filterMap fun i =>
    match o.accs[i]?, o.got.find? fun p => p.1 = i with
    | some a, some p => some (a.lane, p.2)
    | _, _ => none

/-- A load whose further accesses have given values: with the last of them it has been performed. -/
def Op.gain (o : Op) (vals : List (Nat × Nat)) : Op :=
  let o := { o with got := o.got ++ vals }
  if (o.unread (List.range o.accs.length)).isEmpty then
    { o with performed := true, result := loadWrites o.ty o.dst o.values }
  else o

/-- Perform some accesses of the load operation at a position of a group's list, of those that have not been performed: each
access of a load is performed by itself (R113, R119). -/
def State.performAt (s : State) (grp idx : Nat) (is : List Nat) : State :=
  match (s.group grp).ops[idx]? with
  | none => s
  | some o =>
    if o.performed then s
    else
      match o.kind with
      | .load =>
        let p := s.readAt grp (s.hostOf (s.gang (gangOf grp)).stall) o.accs (o.unread is)
        p.1.modGroup grp fun g => { g with ops := g.ops.set idx (o.gain p.2) }
      | _ => s

/-- Perform what is left of a load. -/
def State.performLoad (s : State) (grp idx : Nat) : State :=
  match (s.group grp).ops[idx]? with
  | none => s
  | some o => s.performAt grp idx (List.range o.accs.length)

/-- Perform the earlier loads of the issuing group that satisfy a condition. -/
def State.performLoads (s : State) (f : Op → Bool) : State :=
  (List.range s.me.ops.length).foldl
    (fun s i => if (match s.me.ops[i]? with | some o => f o | none => false) then s.performLoad s.cur i else s) s

/-- The earlier loads that share a location with new accesses come first (R119). -/
def State.orderBefore (s : State) (accs : List Acc) : State :=
  s.performLoads fun o => o.accs.any fun a => accs.any fun b => overlaps a.loc a.bytes b.loc b.bytes

/-! ### Operations that hold their group until an answer returns -/

/-- The issuing group's errand: an operation sent to another party, or its answer. -/
def Group.errand? (g : Group) : Option Op := g.ops.find? fun o => o.kind.errand

/-- The errand has ended, and is counted no longer (R187). -/
def Group.dropErrand (g : Group) : Group :=
  (g.ops.filter fun o => o.kind.errand).foldl Group.uncount { g with ops := g.ops.filter fun o => !o.kind.errand }

/-- Send an errand, wait for its answer, and take it; a check that failed where it was sent is the instruction's own
trap (R93). -/
def errand (block : Option Wake) (send : State → Except Stop (Option Op)) (take : List RegWrite → State → Eff)
    (s : State) : Eff :=
  match s.me.errand? with
  | none =>
    match send s with
    | .error e => .error e
    | .ok none => take [] s
    | .ok (some op) => .error (.holdKeep block (s.pushOp op))
  | some op =>
    let s' := s.modMe Group.dropErrand
    match op.kind with
    | .replied => take op.result s'
    | .refused c lanes addr true =>
      .error (.trapKeep { cause := c, lanes := lanes, addr := addr, wr := false, fetch := false, mal := false } s')
    | _ => .error (.hold block)

/-- The register writes that an errand's answer will make, as far as their sizes go. -/
def Op.answer (op : Op) : List RegWrite :=
  if op.accs.isEmpty then op.dst.map fun _ => .s 0 0 else loadWrites op.ty op.dst (op.accs.map fun a => (a.lane, 0))

/-- An errand whose answer is logged: at its issue the log has room for the results of all its lanes (R182, R225). -/
def loggedErrand (kind : Nat) (key : Word) (block : Option Wake) (send : State → Except Stop (Option Op)) (s : State) :
    Eff :=
  match s.me.fromLog kind key with
  | some (some e) => .ok (s.takeEntry e)
  | some none => diverge s
  | none =>
    errand block
      (fun s =>
        match send s with
        | .ok (some op) =>
          if s.me.logFull (Effect.of kind s.me key op.answer) then trapNow .deadlock else .ok (some op)
        | r => r)
      (fun ws s => .ok (s.modMe fun g =>
        { g with r := g.r.writes ws, effects := g.effects ++ [Effect.of kind g key ws] })) s

/-- An operation performed at issue whose register writes come later, logged (R75, R182, R225): in replay the entry
supplies them and nothing is counted. -/
def loggedLater (kind : Nat) (key : Word) (noret : Bool) (dst : List RegName)
    (perform : State → Except Stop (State × List RegWrite)) (s : State) : Eff :=
  match s.me.fromLog kind key with
  | some (some e) => .ok (s.takeEntry e)
  | some none => diverge s
  | none =>
    match perform s with
    | .error e => .error e
    | .ok (s', ws) =>
      match s'.record (Effect.of kind s.me key ws) with
      | .error e => .error e
      | .ok s'' => if noret then pushSt (Op.taken [] []) s'' else pushLd (Op.taken dst ws) s''

/-! ### Events that end an operation -/

/-- Take the operation at a position out of a group's list, with its register writes made and its count lowered (R75,
R187). -/
def Group.endOp (g : Group) (idx : Nat) : Group :=
  match g.ops[idx]? with
  | none => g
  | some o =>
    { g with r := g.r.writes o.result, ops := g.ops.eraseIdx idx }.uncount o

def OpKind.endsByLoad : OpKind → Bool
  | .load => true
  | .taken => true
  | .atomic _ => true
  | _ => false

def OpKind.endsByAck : OpKind → Bool
  | .store p q => p.isEmpty && q.isEmpty
  | .taken => true
  | .atomic _ => true
  | _ => false

/-- HOME_REGISTRATION of a word (R118, R123). -/
def execHomeRegistration (stall word : Nat) (s : State) : Host.Outcome State Fault Refusal :=
  match s.nextGrant stall word with
  | none => idle s
  | some (grp, idx, o) => happens (s.grantOp stall word grp idx o)

end Sys2Proof.Machine
end

