-- ==== Sys2Proof/Machine/Control.lean ====
section
/-!
DEFINITION. Majors 0x03 to 0x05: masks, lane tiles and serialised regions (R277 to R280), branches and calls (R281), and
the system instructions (R282 to R286).
-/

namespace Sys2Proof.Machine

/-- The lowest set bit of a mask, alone. -/
def lowestBit (m : BitVec 32) : BitVec 32 := m &&& (0 - m)
/-- A mask holds exactly one set bit. -/
def oneBit (m : BitVec 32) : Bool := m ≠ 0 && m &&& (m - 1) = 0

/-- MBLK copies sa[31:0] to EXM, and skips its block when no lane is left (R277). -/
def coreMblk (o : Slot) (s : State) : Eff :=
  let m := (s.regs.getS o.a.num).extractLsb' 0 32
  let t := dispTarget o s.regs.pc
  let s := s.setRegs { s.regs with exm := m }
  .ok (if m = 0 then s.jump t else s)
def execMblk (o : Slot) (s : State) := issueLogged (.mblk o) (coreMblk o) s

/-- PART looks at all 64 bits of B (R278). -/
def corePart (o : Slot) (s : State) : Eff := do
  let b := scalarOf o s.regs o.b
  need (b.toNat ≤ 4) .illegalOp
  pure (s.setRegs { s.regs with lpart := b.extractLsb' 0 3 })
def execPart (o : Slot) (s : State) := issueLogged (.part o) (corePart o) s

def coreSerb (o : Slot) (s : State) : Eff := do
  let r := s.regs
  need (!r.serial) .illegalOp
  let r' := r.setDst o.dst (r.exm.setWidth 64)
  pure (if r.exm = 0 then (s.setRegs r').jump (dispTarget o r.pc)
        else s.setRegs { r' with serial := true, exm := lowestBit r.exm })
def execSerb (o : Slot) (s : State) := issueLogged (.serb o) (coreSerb o) s

/-- SERE: the lanes of sa above the present pass's lane are still to be run (R279). -/
def coreSere (o : Slot) (s : State) : Eff := do
  let r := s.regs
  need (r.serial && oneBit r.exm) .illegalOp
  let a := (r.getS o.a.num).extractLsb' 0 32
  let rest := a &&& ~~~(r.exm ||| (r.exm - 1))
  pure (if rest ≠ 0 then (s.setRegs { r with exm := lowestBit rest }).jump (dispTarget o r.pc)
        else s.setRegs { r with exm := a, serial := false })
def execSere (o : Slot) (s : State) := issueLogged (.sere o) (coreSere o) s

def execBr (o : Slot) (s : State) := issueLogged (.br o) (fun s => .ok (s.jump (dispTarget o s.regs.pc))) s

/-- An untaken BRC is no transfer (R281). -/
def coreBrc (o : Slot) (s : State) : Eff :=
  let r := s.regs
  let a := extTy o.ty (r.getS o.a.num).toNat
  let b := extTy o.ty (r.getS o.b.num).toNat
  .ok (if condInt o.cond a b then s.jump (dispTarget o r.pc) else s)
def execBrc (o : Slot) (s : State) := issueLogged (.brc o) (coreBrc o) s

def execJmp (o : Slot) (s : State) := issueLogged (.jmp o) (fun s => .ok (s.jump (s.regs.getS o.a.num))) s
def execRet (o : Slot) (s : State) := issueLogged (.ret o) (fun s => .ok (s.jump (s.regs.getS o.a.num))) s

/-- The target is read before sd is written (R281). -/
def callTo (o : Slot) (target : Word) (s : State) : Eff :=
  .ok ((s.setRegs (s.regs.setDst o.dst s.me.succ)).jump target)
def execCall (o : Slot) (s : State) := issueLogged (.call o) (fun s => callTo o (dispTarget o s.regs.pc) s) s
def execCalli (o : Slot) (s : State) := issueLogged (.calli o) (fun s => callTo o (s.regs.getS o.a.num) s) s

def execTrap (o : Slot) (s : State) := issueLogged (.trap o) (fun _ => trapNow .trapInsn) s
def execSvc (o : Slot) (s : State) := issueLogged (.svc o) (fun _ => trapNow .trapInsn) s

/-- The slot after an instruction address of a line with LIVE live slots (R250). -/
def slotAfter (pc : Word) (live : Nat) : Word :=
  if (pc.extractLsb' 0 3).toNat + 1 < live then pc + 1 else lineAddr pc + 64

/-- The slot that follows an address, as the held or coherent line at it gives LIVE (R250, R285). -/
def State.slotFollowing (s : State) (pc : Word) : Word :=
  let a := (lineAddr pc).toNat
  match ((s.stall s.here).lines.find? fun l => l.1 = a).map Prod.snd with
  | some line => slotAfter pc (lineLive line)
  | none =>
    match s.structLoc s.here (lineAddr pc) 64 .fetch with
    | some loc => slotAfter pc (lineLive (s.coherentN loc 64))
    | none => slotAfter pc 5

/-- An address is the TPC of the latest trap entry or the slot that follows it (R251). -/
def State.resumesAt (s : State) (pc : Word) : Bool :=
  match s.regs.trapAt with
  | some t => pc = t || pc = s.slotFollowing t
  | none => false

/-- ERET (R83, R283): back to the slot that trapped or the one after it is a resumption, any other return a transfer
(R251). -/
def coreEret (s : State) : Eff := do
  let r := s.regs
  need r.sup .privilege
  let resume := s.resumesAt r.epc
  let s := s.setRegs r.eret
  pure (s.modMe fun g => { g with succ := r.epc, transferFrom := if resume then none else some r.pc })
def execEret (o : Slot) (s : State) := issueLogged (.eret o) coreEret s

/-! ### Clocks (R19, R192, R284) -/

/-- The moment from which a stable's LCNT counts from 0 (R192): that of its latest restart, else a free moment of the cold boot
(log 56). -/
def State.releaseOf (s : State) (stable : Nat) : Word :=
  (s.stable stable).release.getD (Config.release s.boots stable)

/-- LCNT of a stable (R192): panel time since the stable's reset release. DESIGN CHOICE (log 74): a stable's reference runs
with panel time, with no drift between the two, so that LCNT rises by 1 in each tick. -/
def State.lcnt (s : State) (stable : Nat) : Word := s.ptime - s.releaseOf stable

/-- LOFF of a stable: 0 before its first synchronisation (log 56), then what makes GTIME of LCNT (R192). -/
def State.loffOf (s : State) (stable : Nat) : Word :=
  if (s.stable stable).synced then s.releaseOf stable + (s.stable stable).ahead else 0
/-- GTIME of a stable: LCNT + LOFF (R192), which of a synchronised stable is panel time and what it is ahead of it. -/
def State.gtimeOf (s : State) (stable : Nat) : Word :=
  if (s.stable stable).synced then s.ptime + (s.stable stable).ahead else s.lcnt stable

/-- CYC of a stall (R193): the cycles of the panel's own ticks with those that STALL_CYCLE has given the stall alone. -/
def State.cycOf (s : State) (stall : Nat) : Word := s.cycles + (s.stall stall).cyc

/-- Ticks between two lowerings of LOFF (R192). -/
def lowerGap : Nat := 1024

/-- A tick of a stable's time unit: a lowering of LOFF falls together with a rise of LCNT, so that GTIME does not decrease
(R192). -/
def Stable.tick (x : Stable) : Stable :=
  if x.lowering then { x with ahead := x.ahead - 1, sinceLowered := 0, lowering := false, raised := false }
  else { x with sinceLowered := min lowerGap (x.sinceLowered + 1), raised := false }

/-- A tick of a port: the ticks its link has been down. -/
def Port.tick (x : Port) : Port := if x.link then x else { x with downTicks := x.downTicks + 1 }

/-- PTIME rises by 1. The owner's port counts the ticks of its link's absence (R240), and the locked read-modify-writes of the
tick are over (R108). -/
def State.tick (s : State) : State :=
  let s' := { s with ptime := s.ptime + 1, ports := s.ports.map fun p => (p.1, { p.2 with rmw := [] }) }
  let s' := (kkeys s'.stables).foldl (fun s n => s.modStable n Stable.tick) s'
  let p := s.own.owner.toNat
  if s.own.owned then s'.setPort p (s'.port p).tick else s'

/-- GTIME on a stable is later than every reading elsewhere that its groups can have heard of (R136). -/
def State.clockClear (s : State) (stable : Nat) : Bool :=
  match kfind s.heard stable with
  | none => true
  | some x => 0 < (s.gtimeOf stable - x).toInt

/-- The ticks that a crossing from another stable took before a reading: R136 rests on a crossing's 12 ns, of which the moves of
the model show none (log 74). -/
def State.afterCrossing (s : State) (stable : Nat) : Nat → State
  | 0 => s
  | n + 1 => if s.clockClear stable then s else s.tick.afterCrossing stable n

/-- GTIME of a stable as a group reads it (R136, R192): counters of two stables are at most 4 ns apart. -/
def State.readGtime (s : State) (stable : Nat) : State × Word :=
  let s := s.afterCrossing stable 5
  ({ s with readings := kinsert s.readings stable (s.gtimeOf stable) }, s.gtimeOf stable)

/-- A clock reading of the stable that runs the group, logged as kind 3 (R227, R284). -/
def readClock (f : State → Nat → State × Word) (o : Slot) (s : State) : Eff :=
  logged 3 s.regs.pc (fun s => let p := f s (stableOf s.here); .ok (p.1, [.s o.dst.num p.2])) s
def execGtime (o : Slot) (s : State) := issueLogged (.gtime o) (readClock State.readGtime o) s
def execLtime (o : Slot) (s : State) := issueLogged (.ltime o) (readClock (fun s n => (s, s.lcnt n)) o) s

/-- IFENCE waits for the group's stores and empties the stall's line store (R286). -/
def coreIfence (s : State) : Eff :=
  if s.me.st = 0 && s.me.storesGranted then .ok (s.modStall s.here fun st => { st with lines := [] })
  else holdNow
def execIfence (o : Slot) (s : State) := issueLogged (.ifence o) coreIfence s

end Sys2Proof.Machine
end

