-- ==== Sys2Proof/Machine/Loads.lean ====
section
/-!
DEFINITION. Major 0x60: loads of global memory, own scratchpad and loft (R313), the scalar and line loads (R314), and the
completion of loads (R75, R187).
-/

namespace Sys2Proof.Machine

/-- Acquire at the issuing group's stall when the form asks for it (R112, R127). -/
def State.acquireIf (s : State) (b : Bool) : State := if b then s.acquireAt s.here else s

/-- A load of global memory: a plain one is performed later, an acquire at its issue (R119). A word that another group of
the stall has pending is waited for (R123). -/
def loadGlobal (ty : ETy) (dst : List RegName) (accs : List Acc) (acq : Bool) (s : State) : Eff :=
  if accs.isEmpty then .ok (s.acquireIf acq)
  else if accs.any (fun a => s.pendingByOther a.loc a.bytes) then holdNow
  else
    let s := (s.touchAll accs).orderBefore accs
    if acq then
      let p := s.readAccs s.cur s.here accs
      match pushLd (Op.taken dst (loadWrites ty dst p.2)) p.1 with
      | .ok s' => .ok (s'.acquireAt s'.here)
      | .error e => .error e
    else pushLd { Op.make .load ty dst accs [] with performed := false } s

/-- A load of own scratchpad or loft, performed at issue (R119, R129). -/
def loadNow (ty : ETy) (dst : List RegName) (vals : List (Nat × Nat)) (acq : Bool) (s : State) : Eff :=
  if vals.isEmpty then .ok (s.acquireIf acq)
  else
    match pushLd (Op.taken dst (loadWrites ty dst vals)) s with
    | .ok s' => .ok (s'.acquireIf acq)
    | .error e => .error e

/-- The bytes of an own-scratchpad access. -/
def State.ownValue (s : State) (a : Acc) : Nat := s.scr s.here a.loc a.bytes

def coreLdG (o : Slot) (s : State) : Eff := do
  let accs ← gatherLanes s.regs.active fun l => s.globalAcc l (eaGlobal o s.regs l) o.ty.bytes .read
  loadGlobal o.ty (Instr.writesRegs (.ldG o)) (accs.map Prod.snd) o.isAcquire s
def execLdG (o : Slot) (s : State) := issueLogged (.ldG o) (coreLdG o) s

def coreLdL (o : Slot) (s : State) : Eff := do
  let accs ← gatherLanes s.regs.active fun l => s.ownAcc l (eaOffset o s.regs l) o.ty.bytes .read
  loadNow o.ty (Instr.writesRegs (.ldL o)) (accs.map fun p => (p.1, s.ownValue p.2)) o.isAcquire s
def execLdL (o : Slot) (s : State) := issueLogged (.ldL o) (coreLdL o) s

def coreLdF (o : Slot) (s : State) : Eff := do
  let offs ← gatherLanes s.regs.active fun l => s.checkLoft (gangOf s.cur) (eaOffset o s.regs l) o.ty.bytes
  let s' := offs.foldl (fun s p => s.touchLoft s.here p.2 o.ty.bytes) s
  loadNow o.ty (Instr.writesRegs (.ldF o)) (offs.map fun p => (p.1, s.loftValue p.2 o.ty.bytes)) o.isAcquire s'
def execLdF (o : Slot) (s : State) := issueLogged (.ldF o) (coreLdF o) s

/-- LDS is not masked, and its faults do not belong to lanes (R314). -/
def coreLds (o : Slot) (s : State) : Eff := do
  let ea := eaScalar o s.regs
  let n := o.ty.bytes
  let dst := [RegName.s o.dst.num]
  match o.space with
  | 0 =>
    let a ← wholeCheck (s.globalAcc 0 ea n .read)
    loadGlobal o.ty dst [a] o.isAcquire s
  | 1 =>
    let a ← wholeCheck (s.ownAcc 0 ea n .read)
    loadNow o.ty dst [(0, s.ownValue a)] o.isAcquire s
  | _ =>
    let off ← wholeCheck (s.checkLoft (gangOf s.cur) ea n)
    loadNow o.ty dst [(0, s.loftValue off n)] o.isAcquire (s.touchLoft s.here off n)
def execLds (o : Slot) (s : State) := issueLogged (.lds o) (coreLds o) s

/-- One lane's word of LDLINE (R314): translation, permission and alignment are those of the line's address. -/
def State.lineAcc (s : State) (ea : Word) (l : Nat) : Except LaneFault Acc :=
  let va := ea + BitVec.ofNat 64 (4 * l)
  match s.translate s.here s.regs.sup ea 128 .read with
  | .error f => .error { f with addr := va }
  | .ok p =>
    match firstCause
      [((s.stall s.here).locked true va.toNat 4 false, LaneFault.plain .rangeLocked va),
       (ea.toNat % 128 ≠ 0, { cause := .misaligned, addr := va, wr := false, mal := false }),
       (s.readPoison s.here (p.loc + 4 * l) 4 p.uncached, LaneFault.plain .poison va)] with
    | .error f => .error f
    | .ok _ =>
      .ok { lane := l, va := va, loc := p.loc + 4 * l, bytes := 4, uncached := p.uncached, value := 0, compare := 0 }

def coreLdline (o : Slot) (s : State) : Eff := do
  let accs ← gatherLanes s.regs.active (s.lineAcc (eaScalar o s.regs))
  loadGlobal .n32 (Instr.writesRegs (.ldline o)) (accs.map Prod.snd) o.isAcquire s
def execLdline (o : Slot) (s : State) := issueLogged (.ldline o) (coreLdline o) s

/-- LOAD_COMPLETE: of a load's accesses those named are performed if they have not been, and once all are, as they are for a lane
read or returning atomic from the start, its destination registers are written (R75, R113, R187, R306). -/
def State.completeLoad (s : State) (grp idx : Nat) (is : List Nat) : State :=
  let s := s.performAt grp idx is
  match (s.group grp).ops[idx]? with
  | some o => if o.performed then s.modGroup grp fun g => g.endOp idx else s
  | none => s

end Sys2Proof.Machine
end

