-- ==== Sys2Proof/Machine/Stores.lean ====
section
/-!
DEFINITION. Major 0x61: stores of global memory and own scratchpad, staged remote stores and byte counts (R315, R45),
and their acknowledgements (R46, R123, R187).
-/

namespace Sys2Proof.Machine

/-- The cells of one lane's store. -/
def Acc.cells (a : Acc) : List Host.Cell :=
  (List.range a.bytes).map fun i => (a.loc + i, a.value.extractLsb' (8 * i) 8)

/-- The bytes of several stores by address; where lanes write one location the last remains (R113, R315). -/
def storeCells (accs : List Acc) : List Host.Cell :=
  (accs.flatMap Acc.cells).foldl (fun m c => kinsert m c.1 c.2) []

/-- The host ports whose memory the cells lie in (R108, R161). -/
def hostPorts (cells : List Host.Cell) : List Nat :=
  ((cells.map fun c => homeOfLoc c.1).filter fun h => 1 ≤ h && h ≤ 4).map (· - 1) |>.eraseDups

/-- A word that the stall owns and no group has pending takes its bytes at once (R123). -/
def State.grantNow (s : State) (loc : Nat) : Bool :=
  s.ownerOf loc = some s.here && !s.pendingByOther loc 1 && !s.me.pendingAt loc 1

/-- A stored byte enters the global order at once: every word of the naturally aligned store it belongs to can (R121). -/
def State.takesNow (s : State) (accs : List Acc) (c : Host.Cell) : Bool :=
  s.grantNow c.1 && accs.all fun a => a.bytes != 8 || a.loc / 8 != c.1 / 8 || (s.grantNow a.loc && s.grantNow (a.loc + 4))

/-- Words that the group has written and its stall owns (R125). -/
def State.noteWrote (s : State) (cells : List Host.Cell) : State :=
  s.modMe fun g => { g with wrote := (g.wrote ++ cells.map fun (c : Host.Cell) => c.1 / 4).eraseDups }

/-- A plain store of global memory: its bytes wait for the registration of their words (R123), or for their home on an
uncached page. -/
def storeGlobal (accs : List Acc) (s : State) : Eff :=
  if accs.isEmpty then .ok s
  else
    let s := (s.touchAll accs).orderBefore accs
    let cached := storeCells (accs.filter fun a => !a.uncached)
    let direct := storeCells (accs.filter fun a => a.uncached)
    let now := cached.filter (s.takesNow accs)
    let later := cached.filter fun c => !s.takesNow accs c
    let s := now.foldl (fun s c => s.grantWord s.here (c.1 / 4) [c]) s
    let s := (s.noteWrote now).modMe fun g => { g with zlr := (g.zlr ++ hostPorts (cached ++ direct)).eraseDups }
    pushSt (Op.make (.store later direct) .n32 [] accs []) s

/-- A store that enters the global order at once: the own effect of a release-ordered store (R42, R119). -/
def State.storeAtOnce (s : State) (accs : List Acc) : State :=
  let s := s.touchAll accs
  let cached := storeCells (accs.filter fun a => !a.uncached)
  let direct := storeCells (accs.filter fun a => a.uncached)
  let s := cached.foldl (fun s c => s.grantWord s.here (c.1 / 4) [c]) s
  let s := direct.foldl (fun s c => s.writeFrom s.here c.1 [c.2]) s
  (s.noteWrote cached).modMe fun g => { g with zlr := (g.zlr ++ hostPorts (cached ++ direct)).eraseDups }

/-- Stores to the gang's own banks, in ascending lane order (R91, R315). -/
def State.storeOwn (s : State) (accs : List Acc) : State :=
  accs.foldl (fun s a => s.scrWriteN s.here a.loc a.bytes a.value.toNat) s

def storeLocal (accs : List Acc) (s : State) : Eff :=
  if accs.isEmpty then .ok s else pushSt (Op.taken [] []) (s.storeOwn accs)

/-- A lane's source element (R290, R315). -/
def withValue (o : Slot) (r : Regs) (a : Acc) : Acc :=
  { a with value := BitVec.ofNat 64 (laneOf o r o.b o.ty a.lane % 2 ^ o.ty.bits) }

def stGAccs (o : Slot) (s : State) : Except Stop (List Acc) := do
  let accs ← gatherLanes s.regs.active fun l => s.globalAcc l (eaGlobal o s.regs l) o.ty.bytes .write
  pure (accs.map fun p => withValue o s.regs p.2)

def coreStG (o : Slot) (s : State) : Eff :=
  if o.isRelease then
    boundary (fun s => do let accs ← stGAccs o s; pure (s.storeAtOnce accs)) .issue s
  else do
    let accs ← stGAccs o s
    storeGlobal accs s
def execStG (o : Slot) (s : State) := issueLogged (.stG o) (coreStG o) s

def stLAccs (o : Slot) (s : State) : Except Stop (List Acc) := do
  let accs ← gatherLanes s.regs.active fun l => s.ownAcc l (eaOffset o s.regs l) o.ty.bytes .write
  pure (accs.map fun p => withValue o s.regs p.2)

def coreStL (o : Slot) (s : State) : Eff :=
  if o.isRelease then
    boundary (fun s => do let accs ← stLAccs o s; pure (s.storeOwn accs)) .issue s
  else do
    let accs ← stLAccs o s
    storeLocal accs s
def execStL (o : Slot) (s : State) := issueLogged (.stL o) (coreStL o) s

/-- STS: one element, not masked (R315). -/
def stsAcc (o : Slot) (s : State) : Except Stop Acc := do
  let ea := eaScalar o s.regs
  let v := scalarTyOf o s.regs o.b &&& BitVec.ofNat 64 (2 ^ o.ty.bits - 1)
  let a ← wholeCheck (if o.space = 0 then s.globalAcc 0 ea o.ty.bytes .write else s.ownAcc 0 ea o.ty.bytes .write)
  pure { a with value := v }

def coreSts (o : Slot) (s : State) : Eff :=
  let glb := o.space = 0
  if o.isRelease then
    boundary (fun s => do
      let a ← stsAcc o s
      pure (if glb then s.storeAtOnce [a] else s.storeOwn [a])) .issue s
  else do
    let a ← stsAcc o s
    if glb then storeGlobal [a] s else storeLocal [a] s
def execSts (o : Slot) (s : State) := issueLogged (.sts o) (coreSts o) s

/-! ### Remote stores (R45, R93, R315) -/

/-- One lane's remote store: the target stall and offset as given, its bytes. -/
structure RemoteStore where
  stall : Word
  off : Word
  bytes : List Byte
  deriving DecidableEq, Repr

/-- The base offset of a lane; with CNT the displacement is 0 (R311). -/
def remoteOff (o : Slot) (r : Regs) (cnt : Bool) (l : Nat) : Word :=
  if cnt then baseOffset r o.a l else eaOffset o r l

/-- The remote stores of the active lanes: alignment is checked at issue, the rest at the staging area (R93, R312). -/
def remoteStores (o : Slot) (cnt : Bool) (s : State) : Except Stop (List RemoteStore) := do
  let r := s.regs
  let n := o.ty.bytes
  let rs ← gatherLanes r.active fun l =>
    let off := remoteOff o r cnt l
    let t := remoteStall o r l
    if off.toNat % n ≠ 0 then .error { cause := .misaligned, addr := remoteForm t off, wr := true, mal := false }
    else if cnt && o.imm.toNat % 32 ≠ 0 then
      .error { cause := .misaligned, addr := remoteForm t (o.imm.setWidth 64), wr := true, mal := false }
    else .ok ({ stall := t, off := off, bytes := leBytes n (laneOf o r o.b o.ty l) } : RemoteStore)
  pure (rs.map Prod.snd)

/-- A store as a part of a delivery: a stall number that names no stall is kept as one that fails every check. -/
def RemoteStore.part (x : RemoteStore) : Parcel := .bytes x.stall.toNat x.off.toNat x.bytes

/-- The deliveries of a remote store: one for each lane, or with CNT one for each target stall, its bytes before its count
(R315). -/
def remoteParts (o : Slot) (cnt : Bool) (xs : List RemoteStore) : List (List Parcel) :=
  if !cnt then xs.map fun x => [x.part]
  else
    (xs.map RemoteStore.stall).eraseDups.map fun t =>
      let mine := xs.filter fun x => x.stall = t
      mine.map RemoteStore.part ++ [.count t.toNat o.imm.toNat (o.ty.bytes * mine.length)]

/-- Stage deliveries of the issuing group (R45). -/
def State.stage (s : State) (parts : List (List Parcel)) (store : Option Nat) : State :=
  s.modMe fun g =>
    { g with deliveries := g.deliveries ++ parts.map fun ps =>
        { parts := ps, checked := false, bound := [], failed := none, store := store } }

/-- Stage the stores; one instruction counts once in ST until the staging area acknowledges it (R45, R187). -/
def stageStores (o : Slot) (cnt : Bool) (s : State) : Eff := do
  let xs ← remoteStores o cnt s
  if xs.isEmpty then pure s
  else
    let seq := s.nextOp
    let s' ← pushSt (Op.make .remoteStore .n32 [] [] []) s
    pure (s'.stage (remoteParts o cnt xs) (some seq))

def coreStR (cnt : Bool) (o : Slot) (s : State) : Eff :=
  if o.isRelease then boundary (stageStores o cnt) .issue s else stageStores o cnt s
def execStR (o : Slot) (s : State) := issueLogged (.stR o) (coreStR false o) s
def execStRCnt (o : Slot) (s : State) := issueLogged (.stRCnt o) (coreStR true o) s

/-! ### The staging area (R46) -/

/-- One part's check at the staging area: the gang it is bound to, or the failing address (R46, R93). -/
def State.checkPart (s : State) (grp : Nat) (p : Parcel) : Except Word Nat :=
  let lid := lidOf (gangOf grp)
  let check := fun (t off n : Nat) =>
    match s.remoteWriteGang lid (BitVec.ofNat 64 t) (BitVec.ofNat 64 off) n with
    | some g => (.ok g : Except Word Nat)
    | none => .error (remoteForm (BitVec.ofNat 64 t) (BitVec.ofNat 64 off))
  match p with
  | .bytes t off bs => check t off bs.length
  | .count t off _ => check t off 32
  | _ => .ok (gangOf grp)

/-- Check a delivery: every part passes, or the whole fails at its first failing part. -/
def State.checkDelivery (s : State) (grp : Nat) (d : Delivery) : Delivery :=
  let rs := d.parts.map (s.checkPart grp)
  let bad := rs.findSome? fun r => match r with | .error w => some w | .ok _ => none
  { d with checked := true, failed := bad,
           bound := rs.filterMap fun r => match r with | .ok g => some g | .error _ => none }

/-- Check the first delivery that has not been checked. -/
def State.checkFirst (s : State) (grp : Nat) : List Delivery → List Delivery
  | [] => []
  | d :: ds => if d.checked then d :: s.checkFirst grp ds else s.checkDelivery grp d :: ds

/-- Acknowledge the remote stores all of whose deliveries have reached the staging area (R45). -/
def Group.ackStaged (g : Group) : Group :=
  let open' := fun (o : Op) => g.deliveries.any fun d => !d.checked && d.store = some o.seq
  let done := g.ops.filter fun o => o.kind = .remoteStore && !open' o
  { g with ops := g.ops.filter (fun o => !(o.kind = .remoteStore && !open' o)), st := g.st - done.length }

/-- STAGING_CHECK (R46). -/
def execStagingCheck (grp : Nat) (s : State) : Host.Outcome State Fault Refusal :=
  let g := s.group grp
  when (g.deliveries.any fun d => !d.checked) s
    (s.modGroup grp fun g => { g with deliveries := s.checkFirst grp g.deliveries }.ackStaged)

/-! ### Acknowledgements -/

/-- STORE_ACK: the home slice, or the bank, acknowledges a store or a non-returning atomic (R187). -/
def execStoreAck (grp idx : Nat) (s : State) : Host.Outcome State Fault Refusal :=
  match (s.group grp).ops[idx]? with
  | some o => when (!o.countsLd && o.kind.endsByAck) s (s.modGroup grp fun g => g.endOp idx)
  | none => idle s

/-- Host stores of a group to a port that are not yet granted. -/
def Group.hostPending (g : Group) (port : Nat) : Bool :=
  g.ops.any fun o => o.pendingCells.any fun c => homeOfLoc c.1 = port + 1

/-- ZERO_LENGTH_READ_COMPLETION of a port (R108, R126). -/
def execZeroLengthReadCompletion (port : Nat) (s : State) : Host.Outcome State Fault Refusal :=
  let ready := fun (g : Group) => g.zlr.contains port && !g.hostPending port
  when (s.groups.any fun p => ready p.2) s
    { s with groups := s.groups.map fun p =>
        if ready p.2 then (p.1, { p.2 with zlr := p.2.zlr.filter (· != port) }) else p }

end Sys2Proof.Machine
end

