-- ==== Sys2Proof/Machine/Atomics.lean ====
section
/-!
DEFINITION. Major 0x62: atomics of global memory, own and remote scratchpad (R316, R317), LD.R (R313), and the requests and
replies of remote accesses (R93, R94, R130).
-/

namespace Sys2Proof.Machine

/-- The atomic operation of an AOP code (R316). -/
def aopOf : Nat → AOp
  | 0 => .add | 1 => .min | 2 => .max | 3 => .and | 4 => .or | 5 => .xor | 6 => .swap | 7 => .cas | _ => .fadd

/-- The new memory value of an atomic (R316): m the old value, b the operand, c the compare value. -/
def AOp.apply (op : AOp) (t : ETy) (m b c : Nat) : Nat :=
  match op with
  | .add => (m + b) % 2 ^ t.bits
  | .min => if extTy t b < extTy t m then b else m
  | .max => if extTy t m < extTy t b then b else m
  | .and => m &&& b
  | .or => m ||| b
  | .xor => m ^^^ b
  | .swap => b
  | .cas => if m = c then b else m
  | .fadd => (fadd32 0 (BitVec.ofNat 32 m) (BitVec.ofNat 32 b)).toNat

/-- A CAS that fails writes nothing (R316). -/
def AOp.writes (op : AOp) (m c : Nat) : Bool := op != .cas || m = c

/-- A lane's operands (R316): for CAS the new value stands in vB and the compare value in the register, or pair, after. -/
def withOperands (o : Slot) (r : Regs) (a : Acc) : Acc :=
  let mask := 2 ^ o.ty.bits
  let step := if o.ty.bits = 64 then 2 else 1
  let c := match o.b with
    | .v n => laneOf o r (.v (n + BitVec.ofNat 6 step)) o.ty a.lane % mask
    | _ => 0
  { a with value := BitVec.ofNat 64 (laneOf o r o.b o.ty a.lane % mask), compare := BitVec.ofNat 64 c }

/-- Atomics of one instruction performed in ascending lane order, each returning the value before it (R113, R317). -/
def State.runAtomics (s : State) (read : State → Acc → Nat) (write : State → Acc → Nat → State) (op : AOp) (t : ETy) :
    List Acc → State × List (Nat × Nat)
  | [] => (s, [])
  | a :: rest =>
    let m := read s a
    let s' := if op.writes m a.compare.toNat then write s a (op.apply t m a.value.toNat a.compare.toNat) else s
    let q := State.runAtomics s' read write op t rest
    (q.1, (a.lane, m) :: q.2)

/-- Global atomics are performed at the home, any owner revoked first (R124). -/
def globalRead (s : State) (a : Acc) : Nat := s.coherentN a.loc a.bytes
def globalWrite (s : State) (a : Acc) (x : Nat) : State := s.writeFrom s.here a.loc (leBytes a.bytes x)
/-- Atomics of a scratchpad bank. -/
def bankRead (stall : Nat) (s : State) (a : Acc) : Nat := s.scr stall a.loc a.bytes
def bankWrite (stall : Nat) (s : State) (a : Acc) (x : Nat) : State := s.scrWriteN stall a.loc a.bytes x

def atomDst (i : Instr) (o : Slot) : List RegName := if o.bit34 then [] else Instr.writesRegs i

/-- The address of the lowest active lane's access, the KEY of its entry (R182). -/
def lowestKey (r : Regs) (f : Nat → Word) : Word :=
  match r.active with
  | l :: _ => f l
  | [] => 0

/-- An atomic of the group's own memory: a relaxed or acquire one is logged and its result written later, a release is a
boundary whose reply is held with the section (R41, R317, R224). -/
def localAtomic (i : Instr) (o : Slot) (key : Word) (accs : State → Except Stop (List Acc))
    (run : List Acc → State → Except Stop (State × List (Nat × Nat))) (s : State) : Eff :=
  let dst := atomDst i o
  let perform := fun (s : State) => do
    let xs ← accs s
    let p ← run (xs.map (withOperands o s.regs)) s
    pure (p.1, loadWrites o.ty dst p.2)
  if o.isRelease then
    boundary (fun s => do
      let s' ← outside perform s
      pure (s'.acquireIf (o.ord = 4))) .issue s
  else if s.regs.exm = 0 then .ok (s.acquireIf o.isAcquire)
  else do
    let s' ← loggedLater 1 key o.bit34 dst perform s
    pure (s'.acquireIf o.isAcquire)

def atomGAccs (o : Slot) (s : State) : Except Stop (List Acc) := do
  let accs ← gatherLanes s.regs.active fun l => s.atomicAcc l (eaGlobal o s.regs l) o.ty.bytes
  pure (accs.map Prod.snd)

/-- An atomic of host memory that is no PCI Express AtomicOp of its root port: FetchAdd, Swap and CAS of 4 and 8 bytes, where the
port supports them. The foreign-home agent performs it as a locked read-modify-write (R108). -/
def State.lockedRmw (s : State) (op : AOp) (a : Acc) : Bool :=
  let h := homeOfLoc a.loc
  1 ≤ h && h ≤ 4 &&
    !((s.port (h - 1)).atomics && (op = .add || op = .swap || op = .cas) && (a.bytes = 4 || a.bytes = 8))

/-- The bytes that a locked read-modify-write writes in this tick, for the host's own writes that fall between (R108). -/
def State.noteRmw (s : State) (op : AOp) (a : Acc) : State :=
  if s.lockedRmw op a then
    let p := homeOfLoc a.loc - 1
    s.setPort p { s.port p with rmw := (s.port p).rmw ++ (List.range a.bytes).map (a.loc + ·) }
  else s

/-- The write of a global atomic; of a failed CAS there is none (R108, R316). -/
def rmwWrite (op : AOp) (s : State) (a : Acc) (x : Nat) : State := globalWrite (s.noteRmw op a) a x

/-- A global atomic waits for the group's own earlier stores to its locations (R119). -/
def runGlobal (o : Slot) (xs : List Acc) (s : State) : Except Stop (State × List (Nat × Nat)) :=
  if xs.any fun a => s.me.pendingAt a.loc a.bytes then holdNow
  else
    let s := xs.foldl (fun s a => (s.touchHomes a.loc a.bytes).freshen s.here a.loc a.bytes) ((s.touchAll xs).orderBefore xs)
    .ok (s.runAtomics globalRead (rmwWrite (aopOf o.aop)) (aopOf o.aop) o.ty xs)

def coreAtomG (o : Slot) (s : State) : Eff :=
  localAtomic (.atomG o) o (lowestKey s.regs (eaGlobal o s.regs)) (atomGAccs o) (runGlobal o) s
def execAtomG (o : Slot) (s : State) := issueLogged (.atomG o) (coreAtomG o) s

def atomLAccs (o : Slot) (s : State) : Except Stop (List Acc) := do
  let accs ← gatherLanes s.regs.active fun l => s.ownAcc l (eaOffset o s.regs l) o.ty.bytes .update
  pure (accs.map Prod.snd)

def coreAtomL (o : Slot) (s : State) : Eff :=
  localAtomic (.atomL o) o (lowestKey s.regs (eaOffset o s.regs)) (atomLAccs o)
    (fun xs s => .ok (s.runAtomics (bankRead s.here) (bankWrite s.here) (aopOf o.aop) o.ty xs)) s
def execAtomL (o : Slot) (s : State) := issueLogged (.atomL o) (coreAtomL o) s

/-! ### Remote accesses (R93, R94, R130) -/

/-- The accesses of a remote instruction as they leave: panel stall numbers and offsets, unchecked. -/
def remoteAccs (o : Slot) (r : Regs) : List (Nat × Acc) :=
  r.active.map fun l =>
    ((remoteStall o r l).toNat,
     { lane := l, va := eaOffset o r l, loc := (eaOffset o r l).toNat, bytes := o.ty.bytes, uncached := false,
       value := 0, compare := 0 })

def remoteKey (o : Slot) (r : Regs) : Word :=
  lowestKey r fun l => remoteForm (remoteStall o r l) (eaOffset o r l)

/-- LD.R is sent to its targets, counted in LD, and the group waits for the reply (R93, R187, R313). -/
def sendLdR (o : Slot) (s : State) : Except Stop (Option Op) :=
  let xs := remoteAccs o s.regs
  if xs.isEmpty then .ok none
  else if 63 ≤ s.me.ld then holdNow
  else
    .ok (some { Op.make (.remote (xs.map Prod.fst) none) o.ty (Instr.writesRegs (.ldR o)) (xs.map Prod.snd) []
                with counted := true })

def coreLdR (o : Slot) (s : State) : Eff :=
  if s.regs.exm = 0 then .ok (s.acquireIf o.isAcquire)
  else do
    let s' ← loggedErrand 2 (remoteKey o s.regs) (some .reply) (sendLdR o) s
    pure (s'.acquireIf o.isAcquire)
def execLdR (o : Slot) (s : State) := issueLogged (.ldR o) (coreLdR o) s

/-- ATOM.R is sent to its targets, with or without a returned value, and counted accordingly (R187, R317). -/
def sendAtomR (o : Slot) (s : State) : Except Stop (Option Op) :=
  let xs := remoteAccs o s.regs
  if xs.isEmpty then .ok none
  else if (if o.bit34 then 63 ≤ s.me.st else 63 ≤ s.me.ld) then holdNow
  else
    .ok (some { Op.make (.remote (xs.map Prod.fst) (some (aopOf o.aop))) o.ty (atomDst (.atomR o) o)
                  (xs.map fun p => withOperands o s.regs p.2) []
                with counted := true, countsLd := !o.bit34 })

/-- The own effect of a release-ordered ATOM.R: sent, answered, and its reply held with the section (R224). -/
def heldErrand (block : Option Wake) (send : State → Except Stop (Option Op)) (s : State) : Eff :=
  match s.me.held? with
  | some ws => .ok (s.setRegs (s.regs.writes ws))
  | none => errand block send (fun ws s => .ok (s.modMe fun g => g.takeReply ws)) s

def coreAtomR (o : Slot) (s : State) : Eff :=
  if o.isRelease then
    boundary (fun s => do
      let s' ← heldErrand (some .reply) (sendAtomR o) s
      pure (s'.acquireIf (o.ord = 4))) .issue s
  else if s.regs.exm = 0 then .ok (s.acquireIf o.isAcquire)
  else do
    let s' ← loggedErrand 1 (remoteKey o s.regs) (some .reply) (sendAtomR o) s
    pure (s'.acquireIf o.isAcquire)
def execAtomR (o : Slot) (s : State) := issueLogged (.atomR o) (coreAtomR o) s

/-! ### At the target (R93) -/

/-- One lane's check at its target's stall: bounds, then alignment, range locks and poison (R93, R102, R132, R312). -/
def State.checkRemote (s : State) (lid : BitVec 32) (t : Nat) (a : Acc) (write : Bool) : Except LaneFault Unit :=
  let tw : Word := BitVec.ofNat 64 t
  let addr := remoteForm tw a.va
  let held := if write then s.remoteWriteGang lid tw a.va a.bytes else s.remoteReadGang lid tw a.va a.bytes
  if held.isNone then .error (LaneFault.plain .scrBounds addr)
  else
    firstCause
      [((s.stall (s.hostOf t)).locked false a.loc a.bytes write, LaneFault.plain .rangeLocked addr),
       (a.loc % a.bytes ≠ 0, LaneFault.plain .misaligned addr),
       (s.scrPoisoned (s.hostOf t) a.loc a.bytes, LaneFault.plain .poison addr)]

/-- The accesses of a request performed at their targets in lane order. -/
def State.runRemote (s : State) (op : Option AOp) (t : ETy) : List (Nat × Acc) → State × List (Nat × Nat)
  | [] => (s, [])
  | (stall, a) :: rest =>
    let h := s.hostOf stall
    let m := bankRead h s a
    let s' := match op with
      | none => s
      | some f =>
        if f.writes m a.compare.toNat then bankWrite h s a (f.apply t m a.value.toNat a.compare.toNat) else s
    let q := State.runRemote s' op t rest
    (q.1, (a.lane, m) :: q.2)

/-- A failed check goes back with the reply (R93). -/
def refuse (t : Trap) (o : Op) : Op := { o with kind := .refused t.cause t.lanes t.addr false }

/-- The arrival of LD.R or ATOM.R: every lane is checked before any is performed (R213). -/
def State.arriveRemote (s : State) (grp : Nat) (o : Op) (targets : List Nat) (op : Option AOp) : State :=
  let lid := lidOf (gangOf grp)
  let xs := targets.zip o.accs
  let faults := xs.filterMap fun p =>
    match s.checkRemote lid p.1 p.2 op.isSome with
    | .error f => some (p.2.lane, f)
    | .ok _ => none
  match reportLanes faults with
  | some t => s.modGroup grp fun g => g.setErrand (refuse t)
  | none =>
    let p := s.runRemote op o.ty xs
    p.1.modGroup grp fun g =>
      g.setErrand fun o => { o with kind := .answered, result := loadWrites o.ty o.dst p.2 }

/-! ### Barrier objects (R327, R328) -/

/-- A 4-byte word of the object at a stall offset. -/
def State.objWord (s : State) (stall off i : Nat) : Nat := s.scr stall (off + 4 * i) 4

/-- UPDATE (R328) of an object's first 20 bytes: ARR, LANDED and ROUND afterwards, as 12 bytes. -/
def objectAfter (bs : List Byte) (da db : Nat) : List Byte :=
  let w := fun (i : Nat) => leValue ((bs.drop (4 * i)).take 4)
  let arr := (w 2 + da) % 2 ^ 32
  let landed := (w 3 + db) % 2 ^ 32
  if w 0 ≤ arr && w 1 ≤ landed then
    leBytes 4 (arr - w 0) ++ leBytes 4 (landed - w 1) ++ leBytes 4 ((w 4 + 1) % 2 ^ 32)
  else leBytes 4 arr ++ leBytes 4 landed ++ leBytes 4 (w 4)

/-- UPDATE: one indivisible step at the bank (R328). -/
def State.updateObject (s : State) (stall off da db : Nat) : State :=
  s.scrWrite stall (off + 8) (objectAfter ((s.stall stall).scratch.readN off 20) da db)

/-- FLAGS and the zero bytes of an object are as BINIT leaves them (R327). -/
def State.objectOk (s : State) (stall off : Nat) : Bool :=
  s.objWord stall off 5 = 1 && s.objWord stall off 6 = 0 && s.objWord stall off 7 = 0

/-- BARR's count check (R329). -/
def State.countOk (s : State) (stall off : Nat) (count : BitVec 32) : Bool :=
  count = 0 || count.toNat = s.objWord stall off 0

/-- The arrival of a BARR at an object of another stall: inside a receive range there, well formed, the count right. -/
def State.arriveBarr (s : State) (grp : Nat) (o : Op) (t : Nat) (count : BitVec 32) : State :=
  match o.accs with
  | [] => s
  | a :: _ =>
    let tw : Word := BitVec.ofNat 64 t
    let addr := remoteForm tw a.va
    let fail := fun (c : Cause) => s.modGroup grp fun g => g.setErrand (refuse (Trap.whole c addr))
    let h := s.hostOf t
    if (s.remoteWriteGang (lidOf (gangOf grp)) tw a.va 32).isNone then fail .scrBounds
    else if a.loc % 32 ≠ 0 then fail .misaligned
    else if s.scrPoisoned h a.loc 32 || !s.objectOk h a.loc then fail .poison
    else if !s.countOk h a.loc count then fail .barrierCount
    else
      let round := s.objWord h a.loc 4
      let ws := o.dst.filterMap fun d => match d with | .s n => some (RegWrite.s n (BitVec.ofNat 64 round)) | _ => none
      (s.updateObject h a.loc 1 0).modGroup grp fun g =>
        g.setErrand fun o => { o with kind := .answered, result := ws }

/-- REMOTE_ACCESS_ARRIVE (R93, R94, R329). -/
def execRemoteAccessArrive (grp : Nat) (s : State) : Host.Outcome State Fault Refusal :=
  match (s.group grp).errand? with
  | some o =>
    match o.kind with
    | .remote targets op => happens (s.arriveRemote grp o targets op)
    | .arrive t count => happens (s.arriveBarr grp o t count)
    | _ => idle s
  | none => idle s

/-- The reply of an errand has returned. -/
def Op.returned (o : Op) : Op :=
  match o.kind with
  | .answered => { o with kind := .replied }
  | .refused c l a _ => { o with kind := .refused c l a true }
  | _ => o

/-- REMOTE_REPLY (R93). -/
def execRemoteReply (grp : Nat) (s : State) : Host.Outcome State Fault Refusal :=
  match (s.group grp).errand? with
  | some o =>
    match o.kind with
    | .answered => happens (s.modGroup grp fun g => g.setErrand Op.returned)
    | .refused _ _ _ false => happens (s.modGroup grp fun g => g.setErrand Op.returned)
    | _ => idle s
  | none => idle s

end Sys2Proof.Machine
end

