-- ==== Sys2Proof/Machine/Volume.lean ====
section
/-!
DEFINITION. Major 0x64: sparse volumes (R107, R168 to R171, R320, R321) and the removal of CLB entries (R322).
-/

namespace Sys2Proof.Machine

/-! ### Descriptors (R168) -/

/-- Voxel size in bytes of a VSZ code. -/
def voxelBytes (vsz : Nat) : Nat := 2 ^ vsz

/-- A volume descriptor follows R168. -/
def volOk (d : Nat) : Bool :=
  fld d 63 57 = 0 && fld d 71 71 = 0 && fld d 79 79 = 0 && fld d 87 87 = 0 && fld d 95 91 = 0 && fld d 127 104 = 0 &&
  fld d 90 88 ≤ 4 && fld d 255 128 / 2 ^ (8 * voxelBytes (fld d 90 88)) = 0

/-! ### Coordinates (R169, R212) -/

structure Coord where
  x : Nat
  y : Nat
  z : Nat
  deriving DecidableEq, Repr

def packPart (c : Nat) : Nat := if 2 ^ 21 ≤ c then 0x1FFFFF else c
/-- The packed coordinate of R212. -/
def Coord.packed (c : Coord) : Word :=
  BitVec.ofNat 64 (packPart c.x + packPart c.y * 2 ^ 21 + packPart c.z * 2 ^ 42)

/-- A component is in range (R169). -/
def partOk (c size : Nat) : Bool := c < 2 ^ 18 && c / 2048 ≤ size

def Coord.inRange (c : Coord) (d : Nat) : Bool :=
  partOk c.x (fld d 70 64) && partOk c.y (fld d 78 72) && partOk c.z (fld d 86 80)

/-- The index of the entry at one level of the tree: 0 root, 1 inner, 2 leaf (R169). -/
def Coord.index (c : Coord) (d level : Nat) : Nat :=
  match level with
  | 0 => c.x / 2048 + (fld d 70 64 + 1) * (c.y / 2048 + (fld d 78 72 + 1) * (c.z / 2048))
  | 1 => c.x / 128 % 16 + 16 * (c.y / 128 % 16 + 16 * (c.z / 128 % 16))
  | _ => c.x / 8 % 16 + 16 * (c.y / 8 % 16 + 16 * (c.z / 8 % 16))

/-- The voxel's byte offset in its tile (R107). -/
def Coord.inTile (c : Coord) (v : Nat) : Nat := ((c.z % 8) * 64 + (c.y % 8) * 8 + c.x % 8) * v

/-! ### Walks (R157, R169 to R171) -/

/-- The translation of an 8-byte structure of a volume (R321). -/
def State.volLoc (s : State) (va : Word) (n : Nat) (w : Want) : Except LaneFault Nat :=
  match s.translate s.here s.regs.sup va n w with
  | .ok p =>
    if va.toNat % 8 ≠ 0 then .error (LaneFault.plain .misaligned va)
    else if s.readPoison s.here p.loc n true then .error (LaneFault.plain .poison va) else .ok p.loc
  | .error f => .error f

/-- A tree entry follows R169. -/
def treeEntryOk (e : Word) : Bool :=
  if e.getLsbD 0 then e.extractLsb' 1 5 = 0 && e.extractLsb' 57 7 = 0 else e = 0
/-- The child that an entry names. -/
def entryChild (e : Word) : Word := e &&& 0x01FFFFFFFFFFFFC0#64

/-- Where a walk ends: at a tile, or at the first absent entry, by its level and address. -/
inductive WalkEnd where
  | tile (va : Word)
  | absent (level : Nat) (entry : Word)
  deriving DecidableEq, Repr

/-- Follow the tree from a table at a level (R169): n levels are left. -/
def State.walkTree (s : State) (d : Nat) (c : Coord) : Nat → Word → Except LaneFault WalkEnd
  | 0, va => .ok (.tile va)
  | n + 1, table => do
    let level := 2 - n
    let ea := table + BitVec.ofNat 64 (8 * c.index d level)
    let loc ← s.volLoc ea 8 .read
    let e := BitVec.ofNat 64 (s.seenN loc 8)
    if !treeEntryOk e then .error (LaneFault.plain .poison ea)
    else if e.getLsbD 0 then s.walkTree d c n (entryChild e)
    else .ok (.absent level ea)

/-! ### Allocation (R170) -/

/-- One pool: where its ring stands, its size, and the place of its HEAD in the descriptor. -/
structure Pool where
  ring : Word
  size : Nat
  head : Nat
  free : Nat
  align : Nat
  headOff : Nat
  deriving DecidableEq, Repr

def tilePool (d : Nat) : Pool :=
  { ring := BitVec.ofNat 64 (fld d 319 256), size := 2 ^ (fld d 99 96 + 4), head := fld d 415 384,
    free := (fld d 447 416 + 2 ^ 32 - fld d 415 384) % 2 ^ 32, align := 512 * voxelBytes (fld d 90 88), headOff := 48 }
def nodePool (d : Nat) : Pool :=
  { ring := BitVec.ofNat 64 (fld d 383 320), size := 2 ^ (fld d 103 100 + 4), head := fld d 479 448,
    free := (fld d 511 480 + 2 ^ 32 - fld d 479 448) % 2 ^ 32, align := 32768, headOff := 56 }

/-- The block at ring position HEAD + i: its address, checked for its alignment and its translation. -/
def State.poolBlock (s : State) (p : Pool) (bytes i : Nat) : Except LaneFault (Word × Nat) := do
  let slot := p.ring + BitVec.ofNat 64 (8 * ((p.head + i) % p.size))
  let loc ← s.volLoc slot 8 .read
  let b := BitVec.ofNat 64 (s.seenN loc 8)
  if b.toNat % p.align ≠ 0 then .error (LaneFault.plain .poison slot)
  else
    match s.translate s.here s.regs.sup b bytes .write with
    | .error f => .error f
    | .ok q => pure (b, q.loc)

/-- Return a taken block: its address goes to ring slot HEAD − 1, and HEAD := HEAD − 1, as one step (R170). A block whose ring slot
no longer translates is dropped (DESIGN CHOICE, log 87). -/
def State.returnBlock (s : State) (desc : Nat) (p : Pool) (block : Word) : State :=
  let head := (s.coherentN (desc + p.headOff) 4 + 2 ^ 32 - 1) % 2 ^ 32
  match s.translate s.here s.regs.sup (p.ring + BitVec.ofNat 64 (8 * (head % p.size))) 8 .write with
  | .error _ => s
  | .ok q => (s.setWordAt q.loc 0 block).writeFrom s.here (desc + p.headOff) (leBytes 4 head)

/-- The pool of the child that an entry of a level names. -/
def poolOf (d level : Nat) : Pool := if level < 2 then nodePool d else tilePool d

/-- Return the blocks of a walk from a level down. -/
def State.returnBlocks (s : State) (desc d : Nat) : Nat → List (Word × Nat) → State
  | _, [] => s
  | level, b :: bs => (s.returnBlock desc (poolOf d level) b.1).returnBlocks desc d (level + 1) bs

/-- Link taken blocks from an entry down (R170): each is linked by a CAS of an absent entry; where the CAS finds a child, the
child is followed and the block is returned. -/
def State.linkFrom (s : State) (desc d : Nat) (c : Coord) : Nat → Nat → List (Word × Nat) → State
  | _, _, [] => s
  | level, entry, b :: bs =>
    let e := s.wordAt entry 0
    let below := 8 * c.index d (level + 1)
    if e = 0 then (s.setWordAt entry 0 (b.1 ||| 1#64)).linkFrom desc d c (level + 1) (b.2 + below) bs
    else
      let s := s.returnBlock desc (poolOf d level) b.1
      match (if treeEntryOk e then s.volLoc (entryChild e + BitVec.ofNat 64 below) 8 .write else .error (LaneFault.plain .poison 0)) with
      | .ok loc => s.linkFrom desc d c (level + 1) loc bs
      | .error _ => s.returnBlocks desc d (level + 1) bs

/-- Link what the group's VOLST has taken (R170). -/
def State.linkWalk (s : State) : State :=
  match s.me.walk with
  | none => s
  | some w =>
    (s.linkFrom w.desc w.d { x := w.x, y := w.y, z := w.z } w.level w.entry w.blocks).modMe fun g => { g with walk := none }

/-- The bytes of a tile filled with BG. -/
def bgBytes (d : Nat) : List Byte :=
  let v := voxelBytes (fld d 90 88)
  (List.range 512).flatMap fun _ => leBytes v (fld d 255 128)

/-- The group's own stores to the structures of an allocation come first (R119). -/
def State.settleAll (s : State) (xs : List (Nat × Nat)) : State := xs.foldl (fun s x => s.settleAt s.here x.1 x.2) s

/-- Take the blocks for what is absent below an entry of a level, as one step at the descriptor's home slice, and fill them
(R170): they are linked when the group next issues. -/
def State.allocate (s : State) (descVa : Word) (d : Nat) (c : Coord) (level : Nat) (entry : Word) : Except LaneFault State := do
  let nodes := 2 - level
  let np := nodePool d
  let tp := tilePool d
  if np.free < nodes || tp.free = 0 then .error (LaneFault.plain .volPoolEmpty c.packed)
  else
    let descLoc ← s.volLoc descVa 64 .write
    let entryLoc ← s.volLoc entry 8 .write
    let blocks ← (List.range nodes).mapM fun i => s.poolBlock np 32768 i
    let tile ← s.poolBlock tp (512 * voxelBytes (fld d 90 88)) 0
    let s := s.settleAll ((descLoc, 64) :: (entryLoc, 8) :: (tile.2, 512 * voxelBytes (fld d 90 88)) ::
      blocks.map fun b => (b.2, 32768))
    let s := s.writeFrom s.here (descLoc + np.headOff) (leBytes 4 ((np.head + nodes) % 2 ^ 32))
    let s := s.writeFrom s.here (descLoc + tp.headOff) (leBytes 4 ((tp.head + 1) % 2 ^ 32))
    let s := blocks.foldl (fun s b => s.writeFrom s.here b.2 (List.replicate 32768 0)) s
    let s := s.writeFrom s.here tile.2 (bgBytes d)
    let w : Walk :=
      { desc := descLoc, d := d, x := c.x, y := c.y, z := c.z, level := level, entry := entryLoc, blocks := blocks ++ [tile] }
    pure (s.modMe fun g => { g with walk := some w })

/-! ### The CLB (R171) -/

/-- A hit, most recently used first. -/
def Stall.clbHit (st : Stall) (desc : Nat) (c : Coord) : Option Nat :=
  (st.clb.find? fun e => e.1 = desc && e.2.1 = c.x / 8 && e.2.2.1 = c.y / 8 && e.2.2.2.1 = c.z / 8).map
    fun e => e.2.2.2.2

def Stall.clbFill (st : Stall) (desc : Nat) (c : Coord) (tile : Nat) : Stall :=
  let key := (desc, c.x / 8, c.y / 8, c.z / 8, tile)
  { st with clb := (key :: st.clb.filter fun e =>
      !(e.1 = desc && e.2.1 = c.x / 8 && e.2.2.1 = c.y / 8 && e.2.2.2.1 = c.z / 8)).take 64 }

/-! ### One lane (R320) -/

/-- The descriptor of a lane, checked: translation, alignment, form, and VSZ (R168, R320). -/
def State.volDesc (s : State) (desc : Word) (vsz : Nat) : Except LaneFault Nat := do
  let p ← s.translate s.here s.regs.sup desc 64 .read
  if desc.toNat % 64 ≠ 0 then .error (LaneFault.plain .misaligned desc)
  else if s.readPoison s.here p.loc 64 true then .error (LaneFault.plain .poison desc)
  else
    let d := s.seenN p.loc 64
    if volOk d && fld d 90 88 = vsz then pure d else .error (LaneFault.plain .poison desc)

/-- A tile's words that the stall's L1 holds unowned are older than the link a walk has followed (R321). -/
def State.freshTile (s : State) (tile : Word) (n : Nat) : State :=
  match s.translate s.here s.regs.sup tile n .read with
  | .ok p => s.freshen s.here p.loc n
  | .error _ => s.invalidate s.here

/-- How a lane's voxel resolves (R320): its tile; absent; or its blocks have been taken and are not yet linked. -/
inductive Resolved where
  | tile (va : Word)
  | absent
  | taken
  deriving DecidableEq, Repr

/-- The tile of a lane's voxel (R320): a store allocates what is absent. -/
def State.resolve (s : State) (desc : Word) (d : Nat) (c : Coord) (alloc : Bool) :
    Except LaneFault (State × Resolved) := do
  if !c.inRange d then .error (LaneFault.plain .volRange c.packed)
  else
    match (s.stall s.here).clbHit desc.toNat c with
    | some t => pure (s.modStall s.here fun st => st.clbFill desc.toNat c t, .tile (BitVec.ofNat 64 t))
    | none =>
      match ← s.walkTree d c 3 (BitVec.ofNat 64 (fld d 56 0)) with
      | .tile t =>
        pure ((s.freshTile t (512 * voxelBytes (fld d 90 88))).modStall s.here fun st => st.clbFill desc.toNat c t.toNat, .tile t)
      | .absent level entry =>
        if alloc then
          let r ← s.allocate desc d c level entry
          pure (r, .taken)
        else pure (s, .absent)

/-- The accesses of a voxel: one of up to 8 bytes, or two of 8 (R320). -/
def State.voxelAccs (s : State) (l : Nat) (va : Word) (v : Nat) (w : Want) : Except LaneFault (List Acc) := do
  if v ≤ 8 then
    let a ← s.globalAcc l va v w
    pure [a]
  else
    let a ← s.globalAcc l va 8 w
    let b ← s.globalAcc l (va + 8) 8 w
    pure [a, b]

/-- A lane's resolved voxel: BG of an absent tile, or its accesses; or its tile is being allocated. -/
inductive Voxel where
  | background (x : Nat)
  | linking
  | stored (accs : List Acc)
  deriving DecidableEq, Repr

def coordOf (o : Slot) (r : Regs) (l : Nat) : Coord :=
  let n := o.b.num
  { x := (r.getV n l).toNat, y := (r.getV (n + 1) l).toNat, z := (r.getV (n + 2) l).toNat }

/-- Resolve one lane: what it allocates stands whether or not the instruction traps (R320). -/
def State.voxel (s : State) (o : Slot) (store : Bool) (l : Nat) : State × Except LaneFault Voxel :=
  let desc := eaScalar o s.regs
  let c := coordOf o s.regs l
  match s.volDesc desc o.vsz with
  | .error f => (s, .error f)
  | .ok d =>
    match s.resolve desc d c store with
    | .error f => (s, .error f)
    | .ok (s', .absent) => (s', .ok (.background (fld d 255 128)))
    | .ok (s', .taken) => (s', .ok .linking)
    | .ok (s', .tile tile) =>
      let v := voxelBytes o.vsz
      match s'.voxelAccs l (tile + BitVec.ofNat 64 (c.inTile v)) v (if store then .write else .read) with
      | .error f => (s', .error f)
      | .ok accs => (s', .ok (.stored accs))

/-- Resolve the active lanes in ascending order, as far as the first that starts an allocation. -/
def State.voxels (s : State) (o : Slot) (store : Bool) : List Nat → State × List (Nat × Except LaneFault Voxel)
  | [] => (s, [])
  | l :: ls =>
    let p := s.voxel o store l
    if p.1.me.walk.isSome then (p.1, [(l, p.2)])
    else
      let q := State.voxels p.1 o store ls
      (q.1, (l, p.2) :: q.2)

/-- The lanes' voxels, or the reported trap with the allocations kept (R213, R320). A lane whose tile is absent takes its
blocks, and the instruction waits to link them (R170). -/
def gatherVoxels (o : Slot) (store : Bool) (s : State) : Except Stop (State × List (Nat × Voxel)) :=
  let p := s.linkWalk.voxels o store s.regs.active
  if p.1.me.walk.isSome then .error (.holdKeep none p.1)
  else match reportLanes (p.2.filterMap fun q => match q.2 with | .error f => some (q.1, f) | .ok _ => none) with
  | some t => .error (.trapKeep t p.1)
  | none => .ok (p.1, p.2.filterMap fun q => match q.2 with | .ok x => some (q.1, x) | .error _ => none)

def voxelAccsOf (xs : List (Nat × Voxel)) : List Acc :=
  xs.flatMap fun p => match p.2 with | .stored as => as | _ => []

/-- The register writes of a voxel of v bytes (R320). -/
def voxelWrites (dst v l x : Nat) : List RegWrite :=
  (List.range (max 1 (v / 4))).map fun i => .v (dst + i) l (BitVec.ofNat 32 (x / 2 ^ (32 * i)))

/-- The loaded value of a lane: the bytes of its accesses, lowest first. -/
def laneValue (vals : List (Nat × Nat)) (l : Nat) : Nat :=
  match (vals.filter fun p => p.1 = l).map Prod.snd with
  | [] => 0
  | [x] => x
  | x :: y :: _ => x + y * 2 ^ 64

def coreVolld (o : Slot) (s : State) : Eff := do
  let p ← gatherVoxels o false s
  let accs := voxelAccsOf p.2
  if p.2.isEmpty then pure s
  else if accs.any (fun a => s.pendingByOther a.loc a.bytes) then .error (.hold none)
  else
    let s := (p.1.touchAll accs).orderBefore accs
    let q := s.readAccs s.cur s.here accs
    let ws := p.2.flatMap fun x =>
      voxelWrites o.dst.num (voxelBytes o.vsz) x.1
        (match x.2 with | .background b => b | _ => laneValue q.2 x.1)
    pushLd (Op.taken (Instr.writesRegs (.volld o)) ws) q.1
def execVolld (o : Slot) (s : State) := issueLogged (.volld o) (coreVolld o) s

/-- The bytes VOLST stores: the low v bytes of the registers from vc (R320). -/
def voxelSource (o : Slot) (r : Regs) (l : Nat) : Nat :=
  let n := o.c.num
  let w := fun i => (r.getV (n + i) l).toNat
  (w 0 + w 1 * 2 ^ 32 + w 2 * 2 ^ 64 + w 3 * 2 ^ 96) % 2 ^ (8 * voxelBytes o.vsz)

def coreVolst (o : Slot) (s : State) : Eff := do
  if 63 ≤ s.me.st then holdNow
  else
    let p ← gatherVoxels o true s
    let accs := p.2.flatMap fun x =>
      let v := voxelSource o s.regs x.1
      match x.2 with
      | .stored [a] => [{ a with value := BitVec.ofNat 64 v }]
      | .stored (a :: b :: _) => [{ a with value := BitVec.ofNat 64 v }, { b with value := BitVec.ofNat 64 (v / 2 ^ 64) }]
      | _ => []
    storeGlobal accs p.1
def execVolst (o : Slot) (s : State) := issueLogged (.volst o) (coreVolst o) s

/-! ### VOLINV (R322) -/

def sendVolinv (o : Slot) (s : State) : Except Stop (Option Op) :=
  let r := s.regs
  if s.me.st ≠ 0 || !s.me.storesGranted then holdNow
  else
    .ok (some (Op.make
      (.volinv (r.getS o.a.num) ((scalarOf o r o.b).toNat % 2 ^ 17) ((scalarOf o r o.c).toNat % 2 ^ 17)) .n32
      [.s o.dst.num] [] []))

/-- VOLINV waits for every acknowledgement; it is no blocking point, and replay performs it again. -/
def coreVolinv (o : Slot) (s : State) : Eff :=
  errand none (sendVolinv o) (fun ws s => .ok (s.setRegs (s.regs.writes ws))) s
def execVolinv (o : Slot) (s : State) := issueLogged (.volinv o) (coreVolinv o) s

/-- The stalls that a shootdown reaches: stalls of the panel that are present or hosted (R322). -/
def State.volStalls (s : State) (first n : Nat) : List Nat :=
  ((List.range n).map (first + ·)).filter fun t =>
    t < 103680 && ((s.spare t).hosted || !((s.spare t).absent || (s.stable (stableOf t)).lost))

/-- Remove a stall's CLB entries of a descriptor, or all (R322). -/
def Stall.clbRemove (st : Stall) (desc : Word) : Stall :=
  { st with clb := if desc = 0 then [] else st.clb.filter fun e => e.1 != desc.toNat }

/-- Stores of a stall's groups that have resolved and are not yet performed. -/
def State.stallPending (s : State) (stall : Nat) : Bool :=
  s.groups.any fun p =>
    s.hostOf (s.gang (gangOf p.1)).stall = stall && p.2.ops.any fun o => !o.pendingCells.isEmpty

end Sys2Proof.Machine
end

