-- ==== Sys2Proof/Machine/Engine.lean ====
section
/-!
DEFINITION. What the engines share: operand intervals and their checks (R324), range locks (R131 to R133, R172, R173), tags
(R189), command queues (R153), batches (R154), kind 4 log entries (R182, R223, R225), and completion (R134, R324).
-/

namespace Sys2Proof.Machine

/-! ### Operand intervals -/

/-- An operand interval of an engine command: lo to hi − 1 in global addresses or own-scratchpad offsets. -/
structure Span where
  glb : Bool
  dst : Bool
  lo : Int
  hi : Int
  deriving DecidableEq, Repr

/-- An integer as a 64-bit address. -/
def addrOf (x : Int) : Word := BitVec.ofInt 64 x

/-- The pages of a global interval from an address on, with their locations; the lowest faulting page decides (R157,
R324). -/
def State.spanPages (s : State) (w : Want) (hi : Int) : Nat → Int → Except LaneFault (List (Nat × Nat))
  | 0, _ => .ok []
  | n + 1, a =>
    if hi ≤ a then .ok []
    else
      let va := addrOf a
      match s.translate s.here s.regs.sup va 1 w with
      | .error f => .error f
      | .ok p =>
        match State.spanPages s w hi n ((a / 65536 + 1) * 65536) with
        | .error f => .error f
        | .ok rest => .ok ((va.toNat / 65536, p.loc / 65536 * 65536) :: rest)

/-- An interval checked as a whole (R324): its pages, none for a scratchpad interval. -/
def State.checkSpan (s : State) (x : Span) : Except LaneFault (List (Nat × Nat)) :=
  if x.hi ≤ x.lo then .ok []
  else if x.glb then
    s.spanPages (if x.dst then .write else .read) x.hi ((x.hi - x.lo) / 65536 + 2).toNat x.lo
  else if x.lo < 0 || (s.myGang.scrsize : Int) < x.hi then .error (LaneFault.plain .scrBounds (ownForm (addrOf x.lo)))
  else .ok []

/-- The lowest code among faults, the first of them (R213), as a cause that does not belong to lanes. -/
def lowestFault (fs : List LaneFault) : Except Stop Unit :=
  match fs with
  | [] => .ok ()
  | f :: rest =>
    .error (.trap (rest.foldl (fun b x => if x.cause.code < b.cause.code then x else b) f).whole)

def faultsOf {α : Type} (xs : List (Except LaneFault α)) : List LaneFault :=
  xs.filterMap fun x => match x with | .error f => some f | .ok _ => none

/-- A condition of a descriptor, else a cause at an address. -/
def flaw (ok : Bool) (c : Cause) (addr : Word) : List LaneFault := if ok then [] else [LaneFault.plain c addr]

/-- The checks of an engine command: what its rule checks first, then its other flaws and its intervals together (R213, R324):
its pages. -/
def State.checkSpans (s : State) (first flaws : List LaneFault) (xs : List Span) : Except Stop (List (Nat × Nat)) := do
  let rs := xs.map s.checkSpan
  lowestFault first
  lowestFault (flaws ++ faultsOf rs)
  pure (rs.flatMap fun r => match r with | .ok ps => ps | .error _ => [])

/-! ### Range locks (R172, R173) -/

/-- The engine numbers of R172. -/
inductive Eng where
  | cart | cartg | bale | plz | mloop | mdrain | groom
  deriving DecidableEq, Repr

def Eng.code : Eng → BitVec 3
  | .cart => 0 | .cartg => 1 | .bale => 2 | .plz => 3 | .mloop => 4 | .mdrain => 5 | .groom => 6

def State.lockOf (s : State) (x : Span) (e : Eng) (qidx cmd : Nat) : Lock :=
  { dst := x.dst, glb := x.glb,
    base := if x.glb then (addrOf x.lo).toNat else s.myGang.scrbase + x.lo.toNat,
    len := (x.hi - x.lo).toNat, eng := e.code, qidx := qidx, cmd := cmd }

/-- Two registered intervals share a byte that one of them writes (R133). -/
def Lock.conflicts (a b : Lock) : Bool := a.glb = b.glb && (a.dst || b.dst) && overlaps a.base a.len b.base b.len

/-- An earlier operation of the stall still registered shares a byte with these intervals (R133). -/
def Stall.blocked (st : Stall) (cmd : Nat) (mine : List Lock) : Bool :=
  st.locks.any fun l => l.cmd < cmd && mine.any fun m => l.conflicts m

def Stall.dropLocks (st : Stall) (cmd : Nat) : Stall := { st with locks := st.locks.filter fun l => l.cmd != cmd }

/-! ### Tags (R189, R324) -/

/-- The tag word of B: a tag number, or none. -/
def tagOf (b : Word) : Option Nat := if b.getLsbD 6 then none else some (b.toNat % 64)

/-- The GROOM commands queued or running, which stand at the stables that own their tiles (R166, R370). -/
def State.groomCmds (s : State) : List Cmd := s.stables.flatMap fun p => p.2.groomq ++ p.2.jobs.map GroomJob.cmd

/-- A gang's commands queued or running: on the stall that runs it, and at the owners of its tiles. -/
def State.gangCmds (s : State) (gang : Nat) : List Cmd :=
  let st := s.stall (s.hostOf (s.gang gang).stall)
  (st.cartq ++ st.planeq ++ s.groomCmds).filter fun c => c.gang = gang

/-- A tag of the issuing gang whose operation is outstanding. -/
def State.tagBusy (s : State) (t : Option Nat) : Bool := t.isSome && (s.gangCmds (gangOf s.cur)).any fun c => c.tag = t

/-- The KEY of a tagged operation's entry (R182). -/
def tagKey (t : Option Nat) (pc : Word) : Word := match t with | some n => BitVec.ofNat 64 n | none => pc

/-! ### Issue (R324 steps 3 to 5) -/

/-- An engine operation at issue: what its command does, its intervals and pages, its tag, and the scratchpad bytes its
entry will hold. -/
structure Job where
  kind : CmdKind
  eng : Eng
  spans : List Span
  pages : List (Nat × Nat)
  tag : Option Nat
  key : Word
  payload : Nat
  out : List (Nat × List Byte)
  deriving DecidableEq, Repr

/-- The group's own stores to the pages of an operation that are not yet performed (R131). -/
def Group.storesTo (g : Group) (pages : List (Nat × Nat)) : Bool :=
  g.ops.any fun o => o.pendingCells.any fun c => pages.any fun p => p.2 = c.1 / 65536 * 65536

/-- The pages of a list that an entry of 32 MiB maps (R155, R158). -/
def State.largePages (s : State) (pages : List (Nat × Nat)) : List Nat :=
  (pages.map Prod.fst).filter fun v =>
    match s.lookup s.here (BitVec.ofNat 64 (65536 * v)) with | .ok t => t.large | .error _ => false

/-- The command of a job. -/
def State.cmdOf (s : State) (j : Job) : Cmd :=
  { id := s.nextCmd, gang := gangOf s.cur, grp := s.cur, kind := j.kind, tag := j.tag, batch := s.regs.batchOpen, ric := s.me.nextRic,
    pc := s.regs.pc, running := false, pages := j.pages, large := s.largePages j.pages, out := j.out, after := s.nextOp }

/-- The kind 4 entry opened at issue (R182, R223). -/
def Job.entry (j : Job) (g : Group) (c : Cmd) : Effect :=
  { kind := 4, ric := g.nextRic, key := j.key, payload := j.payload, writes := [], complete := false, bytes := [],
    cmd := some c, bale := none, exm := none }

/-- Register the intervals, open the entry, and clear the tag (R132, R173, R189). DESIGN CHOICE (log 82): QIDX is the place in the
queue at which the command enters it, which is not changed as the queue moves on; of a GROOM's place among 64 the 4-bit field of
R172 shows the low bits. -/
def State.register (s : State) (j : Job) (qidx : Nat) : State :=
  let c := s.cmdOf j
  let locks := j.spans.map fun x => s.lockOf x j.eng qidx s.nextCmd
  let s := s.performLoads fun o => o.accs.any fun a => j.pages.any fun p => p.2 = a.loc / 65536 * 65536
  let s := s.modStall s.here fun st => { st with locks := st.locks ++ locks }
  let s := match j.tag with
    | some n => s.modGang (gangOf s.cur) fun g => { g with tags := g.tags &&& ~~~(1#64 <<< n) }
    | none => s
  let s := s.modMe fun g => { g with effects := g.effects ++ [j.entry g c] }
  { s with nextCmd := s.nextCmd + 1 }

/-- What an issue waits for: range-lock entries, its tag, and its own stores to the ranges (R131, R153, R189). -/
def State.jobWaits (s : State) (j : Job) : Bool :=
  16 < (s.stall s.here).locks.length + j.spans.length || s.tagBusy j.tag || s.me.storesTo j.pages

/-- An operation whose accesses are performed at issue comes after every earlier access of its group (R131): it waits for the
stores, and the loads are performed. -/
def afterEarlier (s : State) : Eff := if s.me.storesGranted then .ok (s.performLoads fun _ => true) else holdNow

/-- The waits of a cart-queue command at issue: 16 places, and CP (R153, R187). -/
def State.cartReady (s : State) (j : Job) : Except Stop Unit :=
  if s.me.logFull (j.entry s.me (s.cmdOf j)) then trapNow .deadlock
  else if 16 ≤ (s.stall s.here).cartq.length || 63 ≤ s.me.cp || s.jobWaits j then holdNow
  else .ok ()

/-- Enter a command in the cart queue of the stall; CP rises (R153, R187). -/
def enterCart (j : Job) (s : State) : Eff := do
  s.cartReady j
  let c := s.cmdOf j
  let s := s.register j (s.stall s.here).cartq.length
  let s := s.modStall s.here fun st => { st with cartq := st.cartq ++ [c] }
  pure (s.modMe fun g => { g with cp := g.cp + 1 })

/-- Enter a command in the plane-array queue: 8 places; TL rises and the command joins the open batch, but for MCLR (R153,
R154, R187, R344). -/
def enterPlane (counted : Bool) (j : Job) (s : State) : Eff :=
  let st := s.stall s.here
  let c := s.cmdOf j
  if s.me.logFull (j.entry s.me c) then trapNow .deadlock
  else if 8 ≤ st.planeq.length || (counted && 63 ≤ s.me.tl) || s.jobWaits j then holdNow
  else
    let s := s.register j st.planeq.length
    let s := s.modStall s.here fun st => { st with planeq := st.planeq ++ [c] }
    .ok (if counted then s.modMe fun g => { g with tl := g.tl + 1, openCmds := g.openCmds ++ [c.id] } else s)

/-! ### Completion -/

/-- The cells of writes by offset, later ones foremost. -/
def cellsOf (ws : List (Nat × List Byte)) : Memory :=
  ws.foldl (fun m w => ((List.range w.2.length).zip w.2).foldl (fun m p => kinsert m (w.1 + p.1) p.2) m) []

/-- Mark the entry of a command complete with what it wrote (R182, R223). -/
def Group.logDone (g : Group) (c : Cmd) (bytes : Memory) (bale : Option (Bool × Word × Bool)) : Group :=
  { g with effects := g.effects.map fun e =>
      if (e.cmd.any fun x => x.id = c.id) && !e.complete then
        { e with complete := true, bytes := bytes, bale := if bale.isSome then bale else e.bale }
      else e }

/-- BALEST and BALEPA after a baling (R80): a poisoned span sets PSN and, when PSN was 0, BALEPA. -/
def Regs.baled (r : Regs) (b : Option (Bool × Word × Bool)) : Regs :=
  match b with
  | none => r
  | some (psn, pa, ovf) =>
    { r with balepa := if psn && !r.psn then pa else r.balepa, psn := r.psn || psn, ovf := r.ovf || ovf }

/-- A tag's bit is set (R81, R189). -/
def State.setTag (s : State) (gang : Nat) (t : Option Nat) : State :=
  match t with
  | some n => s.modGang gang fun g => { g with tags := g.tags ||| (1#64 <<< n) }
  | none => s

/-- Batches complete in order (R154). -/
def closeBatches : List Batch → BitVec 16 → List Batch × BitVec 16
  | [], done => ([], done)
  | b :: rest, done => if b.cmds.isEmpty then closeBatches rest b.number else (b :: rest, done)

def Group.settleBatches (g : Group) : Group :=
  let p := closeBatches g.batches g.r.batchDone
  { g with batches := p.1, r := { g.r with batchDone := p.2 } }

/-- A command of a group's batches has completed. -/
def Group.endCmd (g : Group) (id : Nat) : Group :=
  let g := { g with openCmds := g.openCmds.filter (· != id) }
  let bs : List Batch := g.batches.map fun b => { b with cmds := b.cmds.filter (· != id) }
  { g with batches := bs }.settleBatches

/-- The end of a cart-queue command (R134, R324): its entries, its tag, CP, its log. -/
def State.endCart (s : State) (stall : Nat) (c : Cmd) (bytes : Memory) (bale : Option (Bool × Word × Bool)) : State :=
  let s := s.modStall stall fun st => { st.dropLocks c.id with cartq := st.cartq.filter fun x => x.id != c.id }
  let s := s.setTag c.gang c.tag
  s.modGroup c.grp fun g => { g.logDone c bytes bale with cp := g.cp - 1, r := g.r.baled bale }

/-- The position of a command that has started, or may start (R133, R153). -/
def Stall.mayStart (st : Stall) (idx : Nat) : Bool :=
  match st.cartq[idx]? with
  | none => false
  | some c => idx < 4 && !c.running && !st.blocked c.id (st.locks.filter fun l => l.cmd = c.id)

/-- Accesses of the issuing group that precede a command have still to be performed (R131). -/
def State.cmdBehind (s : State) (c : Cmd) : Bool := (s.group c.grp).behind c.after

/-- A command of the cart queue may start (R131, R133, R153). -/
def State.mayStart (s : State) (stall idx : Nat) : Bool :=
  (s.stall stall).mayStart idx && (s.stall stall).cartq[idx]?.all fun c => !s.cmdBehind c

/-- CART_START: a command of one of the four oldest places starts when R131 and R133 let it. -/
def execCartStart (stall idx : Nat) (s : State) : Host.Outcome State Fault Refusal :=
  when (s.mayStart stall idx) s
    (s.modStall stall fun st =>
      { st with cartq := (List.range st.cartq.length).zip st.cartq |>.map fun p =>
          if p.1 = idx then { p.2 with running := true } else p.2 })

/-! ### Replay (R225) -/

/-- Write the scratchpad bytes of an entry, which are listed by offset in the gang's allocation. -/
def State.restoreBytes (s : State) (m : Memory) : State :=
  m.foldl (fun s c => s.scrWrite s.here (s.myGang.scrbase + c.1) [c.2]) s

/-- In replay an engine instruction takes its completion from its entry; otherwise it is performed (R225). -/
def engineIssue (key : Word) (tag : Option Nat) (again : Cmd → State → Eff) (perform : State → Eff) (s : State) :
    Eff :=
  match s.me.fromLog 4 key with
  | some (some e) =>
    let s := (s.takeEntry e).restoreBytes e.bytes
    let s := s.setTag (gangOf s.cur) tag
    let s := s.modMe fun g => { g with r := g.r.baled e.bale }
    match e.cmd with
    | some c => again c s
    | none => .ok s
  | some none => diverge s
  | none => perform s

/-! ### Reading and writing for an engine -/

/-- The location of a global address by the pages of its command. -/
def pageLoc (pages : List (Nat × Nat)) (va : Nat) : Option Nat := (kfind pages (va / 65536)).map (· + va % 65536)

/-- One byte as an engine reads it, with its poison (R102, R324). -/
def State.engineByte (s : State) (stall base : Nat) (pages : List (Nat × Nat)) (own : Bool) (a : Int) : Byte × Bool :=
  if own then
    let off := base + a.toNat
    ((s.stall stall).scratch.read off, s.scrPoisoned stall off 1)
  else
    match pageLoc pages (addrOf a).toNat with
    | some loc => (s.coherent loc, s.poisonAt loc || s.unreachable loc)
    | none => (0, true)

/-- The lines of the global bytes that an engine reads stand in the slices of their homes (R101). -/
def State.engineRead (s : State) (pages : List (Nat × Nat)) (as : List Int) : State :=
  (as.filterMap fun a => pageLoc pages (addrOf a).toNat).foldl (fun s loc => s.touchHome loc) s

/-- One byte as an engine writes it: poisoned data is written as poisoned (R324); a home that cannot answer takes nothing, and no
lane is left to take a cause (R247, log 69). -/
def State.enginePut (s : State) (stall base : Nat) (pages : List (Nat × Nat)) (own : Bool) (a : Int) (x : Byte × Bool) :
    State :=
  if own then
    let off := base + a.toNat
    let s := s.scrWrite stall off [x.1]
    if x.2 then s.scrMark stall off else s
  else
    match pageLoc pages (addrOf a).toNat with
    | some loc =>
      if s.unreachable loc then s
      else let s := s.writeCoherent loc [x.1]; if x.2 then s.markPoison loc else s
    | none => s

end Sys2Proof.Machine
end

