-- ==== Sys2Proof/Machine/Baler.lean ====
section
/-!
DEFINITION. The baler: baling commands (R337), spans and their alignment (R64, R66), plane values (R65, R67, R68), and plane
blocks (R330) with their zero-map bits (R95).
-/

namespace Sys2Proof.Machine

/-- A baling command (R337). -/
structure BaleCmd where
  ty : Option ETy
  ovf : Nat
  ptrap : Bool
  scl : Bool
  planes : Nat
  rows : Nat
  spans : Nat
  scloff : Nat
  dstride : Nat
  zeros : Bool
  deriving DecidableEq, Repr

def BaleCmd.of (d : Nat) : BaleCmd :=
  { ty := ETy.ofCode (fld d 4 0), ovf := fld d 9 8, ptrap := fld d 10 10 = 1, scl := fld d 11 11 = 1,
    planes := fld d 19 16 + 1, rows := fld d 28 24 + 1, spans := fld d 47 32 + 1, scloff := fld d 81 64,
    dstride := fld d 127 96,
    zeros := fld d 7 5 = 0 && fld d 15 12 = 0 && fld d 23 20 = 0 && fld d 31 29 = 0 && fld d 63 48 = 0 &&
      fld d 95 82 = 0 }

/-- The element types of the baler (R337). -/
def baleTypes : List ETy := [.s2, .s4, .s8, .s16, .o4]
def BaleCmd.w (c : BaleCmd) : Nat := (c.ty.getD .s4).bits
/-- Bytes of one row's span. -/
def BaleCmd.rowBytes (c : BaleCmd) : Nat := 32 * c.w
/-- Bytes of one plane block (R330). -/
def BaleCmd.blockBytes (c : BaleCmd) : Nat := c.planes * 1024 + 32
/-- Bytes from the first block's start to the last block's end. -/
def BaleCmd.destBytes (c : BaleCmd) : Nat := (c.spans - 1) * c.dstride + c.blockBytes

/-- The command follows R337. -/
def BaleCmd.ok (c : BaleCmd) : Bool :=
  c.zeros && (match c.ty with | some t => baleTypes.contains t && (t != .o4 || c.planes = 8) | none => false) &&
  c.dstride % 32 = 0 && (c.spans = 1 || c.blockBytes ≤ c.dstride)

/-! ### One span of one row (R66 to R68) -/

/-- An element's value from the span's bytes (R52, R53, R63): none for an ill-formed O4 byte. -/
def spanElement (t : ETy) (bs : List Byte) (k : Nat) : Option Int :=
  let byte := fun i => (bs.getD i 0).toNat
  match t with
  | .o4 => o4Element (byte (k / 2)) (k % 2 = 1)
  | .s2 => some (sext (byte (k / 4) / 4 ^ (k % 4)) 2)
  | .s4 => some (sext (byte (k / 2) / 16 ^ (k % 2)) 4)
  | .s8 => some (sext (byte k) 8)
  | _ => some (sext (byte (2 * k) + 256 * byte (2 * k + 1)) 16)

/-- Block b's exponent, four to a scale word (R64). -/
def blockExp (words : List Nat) (b : Nat) : Nat := words.getD (b / 4) 0 / 2 ^ (7 * (b % 4)) % 128

/-- A scale word that poisons its span (R66). -/
def scalePoisons (w : Nat) : Bool := w / 2 ^ 28 ≠ 0 || (List.range 4).any fun b => w / 2 ^ (7 * b) % 128 = 0x7F

/-- The range an aligned value is held to: the P-bit range, or that of R68. -/
def planeRange (t : ETy) (p : Nat) : Int × Int := if t = .o4 then (-136, 119) else (-2 ^ (p - 1), 2 ^ (p - 1) - 1)

/-- The overflow policies of R67 and R68 for a value out of range. -/
def replaceBy (ovf : Nat) (t : ETy) (p : Nat) (x : Int) : Int :=
  let r := planeRange t p
  let n : Int := if t = .o4 then 256 else 2 ^ p
  match ovf with
  | 0 => if x < r.1 then r.1 else r.2
  | 1 => (x - r.1) % n + r.1
  | _ => r.1

/-- The plane bits of a value (R65, R68). -/
def planeBits (t : ETy) (p : Nat) (q : Int) : Nat :=
  if t = .o4 then
    let low := sext (wrapInt 4 q) 4
    wrapInt 4 q + 16 * wrapInt 4 ((q - low) / 16)
  else wrapInt p q

/-- One row's span as the baler leaves it. -/
structure BaledRow where
  e : Nat
  bits : List Nat
  replaced : Bool
  deriving DecidableEq, Repr

def BaledRow.empty (e : Nat) : BaledRow := { e := e, bits := [], replaced := false }

/-- Align and convert one span of a row (R66 to R68); `replaced` says that some value was out of range. -/
def baleRow (c : BaleCmd) (bs : List Byte) (words : List Nat) : BaledRow :=
  let t := c.ty.getD .s4
  if words.any scalePoisons || (t = .o4 && bs.any (· = 0x88)) then BaledRow.empty 0x7F
  else
    let exps := (List.range 64).map (blockExp words)
    let e := exps.foldl min 127
    let s := (List.range 256).map fun k => (spanElement t bs k).getD 0 * 2 ^ (exps.getD (k / 4) 0 - e)
    let r := planeRange t c.planes
    let out := fun (x : Int) => x < r.1 || r.2 < x
    { e := e, bits := s.map fun x => planeBits t c.planes (if out x then replaceBy c.ovf t c.planes x else x),
      replaced := s.any out }

/-- The 256-bit plane word of plane p of a row, as 32 bytes (R65, R330). -/
def planeWord (row : BaledRow) (p : Nat) : List Byte :=
  (List.range 32).map fun i =>
    BitVec.ofNat 8 ((List.range 8).foldl (fun acc j => acc + (row.bits.getD (8 * i + j) 0 / 2 ^ p % 2) * 2 ^ j) 0)

/-- The plane block of a span: its rows, then zero rows with exponent 63 (R330, R339). -/
def planeBlock (planes : Nat) (rows : List BaledRow) : List Byte :=
  let row := fun r => rows.getD r (BaledRow.empty 63)
  ((List.range planes).flatMap fun p => (List.range 32).flatMap fun r => planeWord (row r) p) ++
  (List.range 32).map fun r => BitVec.ofNat 8 (row r).e

/-- The sixteen scale words of a row's span: those supplied, or exponent 63 throughout (R64). -/
def defaultScale : List Nat := List.replicate 16 (63 + 63 * 2 ^ 7 + 63 * 2 ^ 14 + 63 * 2 ^ 21)

/-- The address that poisons a row's span: the lowest of its poisoned scale words and element bytes (R80, R339). -/
def rowPoison (c : BaleCmd) (bs : List Byte) (addr : Nat → Word) (words : List Nat) (wordAddr : Nat → Word) :
    Option Word :=
  let fromWords := ((List.range words.length).zip words).filterMap fun p =>
    if scalePoisons p.2 then some (wordAddr p.1) else none
  let fromBytes := if c.ty = some .o4 then
      ((List.range bs.length).zip bs).filterMap fun p => if p.2 = 0x88 then some (addr p.1) else none
    else []
  match fromWords ++ fromBytes with
  | [] => none
  | x :: xs => some (xs.foldl (fun b y => if y.toNat < b.toNat then y else b) x)

/-! ### A whole command -/

/-- Where the baler finds a span's row: its bytes and their addresses. -/
structure RowSource where
  bytes : List Byte
  addr : Nat → Word

/-- What a baling command produces: its blocks, the first poison, and whether a value was out of range. -/
structure Baled where
  blocks : List (Nat × List Byte)
  poison : Option Word
  replaced : Bool
  deriving DecidableEq, Repr

/-- Bale every span (R339, R340); `dst` and `scl` are own-scratchpad offsets, and addresses come as the caller forms them. -/
def bale (c : BaleCmd) (dst : Nat) (source : Nat → Nat → RowSource) (scale : Nat → Nat → List Nat)
    (scaleAddr : Nat → Nat → Nat → Word) : Baled :=
  let one := fun sp => (List.range c.rows).map fun r =>
    let src := source sp r
    let ws := if c.scl then scale sp r else defaultScale
    (baleRow c src.bytes ws, rowPoison c src.bytes src.addr ws (scaleAddr sp r))
  let all := (List.range c.spans).map one
  { blocks := ((List.range c.spans).zip all).map fun p =>
      (dst + p.1 * c.dstride, planeBlock c.planes (p.2.map Prod.fst)),
    poison := (all.flatMap id).findSome? Prod.snd,
    replaced := (all.flatMap id).any fun p => p.1.replaced }

/-- The scale words of span s, row r in a gang's scratchpad (R337). -/
def State.scaleWords (s : State) (stall base : Nat) (c : BaleCmd) (sp r : Nat) : List Nat :=
  (List.range 16).map fun i => s.scr stall (base + c.scloff + (sp * c.rows + r) * 64 + 4 * i) 4
def scaleOff (c : BaleCmd) (sp r i : Nat) : Nat := c.scloff + (sp * c.rows + r) * 64 + 4 * i
/-- Some scale word that span s reads is poisoned in the scratchpad (R102). -/
def State.scaleBad (s : State) (stall base : Nat) (c : BaleCmd) (sp : Nat) : Bool :=
  c.scl && s.scrPoisoned stall (base + scaleOff c sp 0 0) (64 * c.rows)

/-- A run of zero-map bits set for plane words of zeros and cleared for others (R95). -/
def zmapRun (z : KMap Bool) (word : Nat) : List (List Byte) → KMap Bool
  | [] => z
  | w :: ws => zmapRun (kset false z word (w.all fun b => b = 0)) (word + 1) ws

/-- The baler's write of whole plane words: each sets or clears its zero-map bit (R95). -/
def State.balerWrite (s : State) (stall off : Nat) (bs : List Byte) : State :=
  let words := (List.range (bs.length / 32)).map fun i => (bs.drop (32 * i)).take 32
  (s.scrPut stall off bs).modStall stall fun st => { st with zmap := zmapRun st.zmap (off / 32) words }

end Sys2Proof.Machine
end

