-- ==== Sys2Proof/Machine/Cart.lean ====
section
/-!
DEFINITION. Major 0x65: CART and CARTG (R323 to R325, R340) and the events that complete them.
-/

namespace Sys2Proof.Machine

/-! ### The cart descriptor (R323) -/

def cartSrc (d : Nat) : Int := fld d 56 0
def cartDst (d : Nat) : Int := fld d 120 64
def cartSsp (d : Nat) : Bool := fld d 128 128 = 1
def cartDsp (d : Nat) : Bool := fld d 129 129 = 1
def cartEsz (d : Nat) : Nat := 2 ^ fld d 131 130
def cartBales (d : Nat) : Bool := fld d 133 132 = 1
def cartBar (d : Nat) : Bool := fld d 136 136 = 1
def cartBarOff (d : Nat) : Nat := fld d 161 144
/-- The extent of dimension k minus 1, and its signed strides. -/
def cartE (d k : Nat) : Nat := fld d (207 + 16 * k) (192 + 16 * k)
def cartS (d k : Nat) : Int := sext (fld d (287 + 32 * k) (256 + 32 * k)) 32
def cartD (d k : Nat) : Int := if cartBales d then 0 else sext (fld d (415 + 32 * k) (384 + 32 * k)) 32
/-- The baling command of MODE 01. -/
def cartCmd (d : Nat) : BaleCmd := BaleCmd.of (fld d 511 384)
/-- The bytes a cart moves: Π(Ek + 1) × ESZ. -/
def cartBytes (d : Nat) : Nat := (List.range 4).foldl (fun n k => n * (cartE d k + 1)) (cartEsz d)

/-- The must-be-zero fields, and those of the dimensions beyond DIMS. -/
def cartZeros (d : Nat) : Bool :=
  fld d 63 57 = 0 && fld d 127 121 = 0 && fld d 143 137 = 0 && fld d 191 162 = 0 &&
  (List.range 4).all fun k => k ≤ fld d 135 134 || (cartE d k = 0 && cartS d k = 0 && cartD d k = 0)

/-- SRC, DST and every stride are multiples of ESZ (R324). -/
def cartAligned (d : Nat) : Bool :=
  let ok := fun (x : Int) => x % cartEsz d = 0
  ok (cartSrc d) && ok (cartDst d) && (List.range 4).all fun k => ok (cartS d k) && ok (cartD d k)

/-- The command of a baling cart is well formed and matches its bytes (R340). -/
def cartCmdOk (d : Nat) : Bool :=
  let c := cartCmd d
  c.ok && !c.ptrap && c.ovf != 3 && cartDsp d && cartBytes d = c.rows * c.spans * c.rowBytes

/-- The flaws of a cart descriptor at ea (R324 step 1, R340). -/
def cartFlaws (d : Nat) (ea : Word) : List LaneFault :=
  flaw (cartZeros d && fld d 133 132 ≤ 1 && (!cartBales d || cartCmdOk d)) .poison ea ++
  flaw (cartAligned d && (!cartBar d || cartBarOff d % 32 = 0)) .misaligned ea ++
  flaw (!cartBales d || (cartDst d % 32 = 0 && (cartCmd d).scloff % 4 = 0)) .misaligned ea

/-- The interval from the lowest to the highest byte that strides can touch (R324 step 2). -/
def cartSpan (d : Nat) (glb dst : Bool) (base : Int) (stride : Nat → Int) : Span :=
  let reach := (List.range 4).map fun k => (cartE d k : Int) * stride k
  { glb := glb, dst := dst, lo := base + (reach.map fun x => min x 0).sum,
    hi := base + (reach.map fun x => max x 0).sum + cartEsz d }

/-- The intervals of a cart (R324, R340). -/
def cartSpans (d : Nat) : List Span :=
  let src := cartSpan d (!cartSsp d) false (cartSrc d) (cartS d)
  if cartBales d then
    let c := cartCmd d
    let scl : List Span := if c.scl
      then [{ glb := false, dst := false, lo := c.scloff, hi := c.scloff + c.spans * c.rows * 64 }] else []
    if c.ty.any baleTypes.contains then
      src :: { glb := false, dst := true, lo := cartDst d, hi := cartDst d + c.destBytes } :: scl
    else src :: scl
  else [src, cartSpan d (!cartDsp d) true (cartDst d) (cartD d)]

/-- The barrier object of a command fits the allocation. -/
def State.barFits (s : State) (bar : Bool) (off : Nat) : List LaneFault :=
  flaw (!bar || off + 32 ≤ s.myGang.scrsize) .scrBounds (BitVec.ofNat 64 off)

/-- A 64-byte descriptor in the gang's scratchpad at ea, a multiple of 64, as a number. Poisoned, it is read as malformed
(R102). -/
def State.descriptor (s : State) (ea : Word) : Except Stop Nat := do
  let off ← wholeCheck (s.ownStruct (gangOf s.cur) ea 64 64)
  need (!s.scrPoisoned s.here off 64) .poison (ownForm ea)
  pure (s.scr s.here off 64)

/-- Scratchpad bytes that a cart writes, for the length of its entry (R182). -/
def cartPayload (d : Nat) : Nat :=
  if cartBales d then (cartCmd d).spans * (cartCmd d).blockBytes else if cartDsp d then cartBytes d else 0

/-- Count bytes on a barrier object of the group's gang (R324). -/
def State.countLanded (s : State) (stall base : Nat) (bar : Bool) (off n : Nat) : State :=
  if bar then s.updateObject stall (base + off) 0 n else s

/-- A completion taken from the log counts its bytes again, as its object's bytes were (R225). -/
def replayCart (c : Cmd) (s : State) : Eff :=
  match c.kind with
  | .cart d => .ok (s.countLanded s.here s.myGang.scrbase (cartBar d) (cartBarOff d) (cartBytes d))
  | _ => .ok s

def performCart (t : Option Nat) (key : Word) (o : Slot) (s : State) : Eff := do
  let ea := eaScalar o s.regs
  let d ← s.descriptor ea
  let spans := cartSpans d
  let pages ← s.checkSpans (cartFlaws d ea) (s.barFits (cartBar d) (cartBarOff d)) spans
  enterCart
    { kind := .cart d, eng := .cart, spans := spans, pages := pages, tag := t, key := key, payload := cartPayload d,
      out := [] } s

def coreCart (o : Slot) (s : State) : Eff :=
  let t := tagOf (scalarOf o s.regs o.b)
  let key := tagKey t s.regs.pc
  engineIssue key t replayCart (performCart t key o) s
def execCart (o : Slot) (s : State) := issueLogged (.cart o) (coreCart o) s

/-! ### Moving the elements -/

/-- The places of the elements in visiting order, i0 fastest: source and destination offsets (R323). -/
def visits : List (Nat × Int × Int) → List (Int × Int)
  | [] => [(0, 0)]
  | (n, a, b) :: rest => (visits rest).flatMap fun p =>
      (List.range n).map fun (i : Nat) => (p.1 + (i : Int) * a, p.2 + (i : Int) * b)

def cartVisits (d : Nat) : List (Int × Int) :=
  visits ((List.range 4).map fun k => (cartE d k + 1, cartS d k, cartD d k))

/-- Where a command runs: its stall, its gang's allocation, its pages. -/
structure Site where
  stall : Nat
  base : Nat
  pages : List (Nat × Nat)
  deriving DecidableEq, Repr

def State.siteOf (s : State) (stall : Nat) (c : Cmd) : Site :=
  { stall := stall, base := (s.gang c.gang).scrbase, pages := c.pages }

/-- A source byte: one that the cart itself has written is its old value or the new one, a free choice (R324). -/
def cartByte (x : Site) (s0 : State) (own : Bool) (a : Int) (s : State) : State × (Byte × Bool) :=
  let now := s.engineByte x.stall x.base x.pages own a
  let old := s0.engineByte x.stall x.base x.pages own a
  if now = old then (s, now)
  else ({ s with free := s.free + 1 }, if (Config.freeWord s.free).getLsbD 0 then old else now)

/-- The bytes of one element, lowest first. -/
def cartElement (x : Site) (s0 : State) (own : Bool) : Nat → Int → State → State × List (Byte × Bool)
  | 0, _, s => (s, [])
  | n + 1, a, s =>
    let p := cartByte x s0 own a s
    let q := cartElement x s0 own n (a + 1) p.1
    (q.1, p.2 :: q.2)

/-- Write bytes upward from an address. -/
def cartPut (x : Site) (own : Bool) : Int → List (Byte × Bool) → State → State
  | _, [], s => s
  | a, b :: bs, s => cartPut x own (a + 1) bs (s.enginePut x.stall x.base x.pages own a b)

/-- Move every element in visiting order: where elements write one byte, the latest remains (R324). -/
def cartMove (d : Nat) (x : Site) (s0 : State) : List (Int × Int) → State → State
  | [], s => s
  | v :: vs, s =>
    let p := cartElement x s0 (cartSsp d) (cartEsz d) (cartSrc d + v.1) s
    cartMove d x s0 vs (cartPut x (cartDsp d) (cartDst d + v.2) p.2 p.1)

/-- The scratchpad bytes that stand at the places a cart wrote, by offset in the allocation. -/
def State.ownBytesAt (s : State) (x : Site) (as : List Int) : Memory :=
  as.foldl (fun m a => kinsert m a.toNat ((s.stall x.stall).scratch.read (x.base + a.toNat))) []

def cartPlaces (d : Nat) : List Int :=
  (cartVisits d).flatMap fun v => (List.range (cartEsz d)).map fun (i : Nat) => cartDst d + v.2 + i

/-- The BALEPA form of an element's address (R339, R340). -/
def baleAddr (own : Bool) (a : Int) : Word := if own then addrOf a ||| (1#64 <<< 63) else addrOf a

/-- Feed the elements of a cart to the baler (R340): its blocks, its poison, and whether a block took in poisoned data. -/
def cartBale (s : State) (d : Nat) (x : Site) : Baled × List Bool :=
  let c := cartCmd d
  let places := (cartVisits d).flatMap fun v => (List.range (cartEsz d)).map fun (i : Nat) => cartSrc d + v.1 + i
  let row := fun sp r => (places.drop ((sp * c.rows + r) * c.rowBytes)).take c.rowBytes
  let read := fun (a : Int) => s.engineByte x.stall x.base x.pages (cartSsp d) a
  let source := fun sp r =>
    let as := row sp r
    ({ bytes := as.map fun a => (read a).1, addr := fun i => baleAddr (cartSsp d) (as.getD i 0) } : RowSource)
  let bad := fun sp => (List.range c.rows).any (fun r => (row sp r).any fun a => (read a).2) || s.scaleBad x.stall x.base c sp
  (bale c (cartDst d).toNat source (s.scaleWords x.stall x.base c)
      (fun sp r i => baleAddr true (scaleOff c sp r i)),
   (List.range c.spans).map bad)

/-- Write baled blocks; a block made from poisoned data is poisoned (R102). -/
def State.putBlocks (s : State) (x : Site) : List ((Nat × List Byte) × Bool) → State
  | [] => s
  | (w, bad) :: rest =>
    let s := s.balerWrite x.stall (x.base + w.1) w.2
    let s := if bad then (List.range w.2.length).foldl (fun s i => s.scrMark x.stall (x.base + w.1 + i)) s else s
    State.putBlocks s x rest

/-- BALEST and BALEPA of a baling (R339): the poisoning address, and whether a value was replaced. -/
def Baled.status (b : Baled) : Bool × Word × Bool := (b.poison.isSome, b.poison.getD 0, b.replaced)

/-- The lines of a cart's global source at their homes (R101). -/
def State.cartRead (s : State) (d : Nat) (x : Site) : State :=
  if cartSsp d then s
  else s.engineRead x.pages ((cartVisits d).flatMap fun v => [cartSrc d + v.1, cartSrc d + v.1 + (cartEsz d - 1 : Nat)])

/-- What a cart does when it runs (R324): the state and, for its entry, the scratchpad bytes and the baler's status. -/
def runCart (d : Nat) (x : Site) (s : State) : State × Memory × Option (Bool × Word × Bool) :=
  let s := s.cartRead d x
  if cartBales d then
    let p := cartBale s d x
    (s.putBlocks x (p.1.blocks.zip p.2), cellsOf p.1.blocks, some p.1.status)
  else
    let s' := cartMove d x s (cartVisits d) s
    (s', if cartDsp d then s'.ownBytesAt x (cartPlaces d) else [], none)

/-- CART_COMPLETE (R134, R324): the writes are performed, the bytes are counted, and the command ends. -/
def execCartComplete (stall idx : Nat) (s : State) : Host.Outcome State Fault Refusal :=
  match (s.stall stall).cartq[idx]? with
  | some c =>
    match c.kind with
    | .cart d =>
      if c.running then
        let x := s.siteOf stall c
        let p := runCart d x s
        let s := p.1.countLanded stall x.base (cartBar d) (cartBarOff d) (cartBytes d)
        happens (s.endCart stall c p.2.1 p.2.2)
      else idle s
    | _ => idle s
  | none => idle s

/-! ### CARTG (R325) -/

def gatherTable (d : Nat) : Int := fld d 56 0
def gatherRows (d : Nat) : Nat := fld d 95 64
def gatherStride (d : Nat) : Nat := fld d 127 96
def gatherRowB (d : Nat) : Nat := fld d 143 128
def gatherCount (d : Nat) : Nat := fld d 159 144
def gatherIdx (d : Nat) : Nat := fld d 177 160
def gatherDst (d : Nat) : Nat := fld d 209 192
def gatherBar (d : Nat) : Bool := fld d 210 210 = 1
def gatherBarOff (d : Nat) : Nat := fld d 241 224

def gatherFlaws (d : Nat) (ea : Word) : List LaneFault :=
  flaw (fld d 63 57 = 0 && fld d 191 178 = 0 && fld d 223 211 = 0 && fld d 511 242 = 0 && gatherRowB d % 16 = 0 &&
    16 ≤ gatherRowB d && gatherRowB d ≤ 4096 && 1 ≤ gatherCount d && gatherCount d ≤ 4096) .poison ea ++
  flaw (gatherTable d % 16 = 0 && gatherStride d % 16 = 0 && gatherIdx d % 4 = 0 && gatherDst d % 16 = 0 &&
    (!gatherBar d || gatherBarOff d % 32 = 0)) .misaligned ea

def gatherSpans (d : Nat) : List Span :=
  [{ glb := false, dst := false, lo := gatherIdx d, hi := gatherIdx d + 4 * gatherCount d },
   { glb := true, dst := false, lo := gatherTable d, hi := gatherTable d + gatherRows d * gatherStride d },
   { glb := false, dst := true, lo := gatherDst d, hi := gatherDst d + gatherCount d * gatherRowB d }]

/-- The intervals checked at issue reach the highest byte a row can touch (R324 step 2). -/
def gatherChecked (d : Nat) : List Span :=
  let beyond := gatherRowB d - gatherStride d
  (gatherSpans d).map fun x => if x.glb && 0 < gatherRows d then { x with hi := x.hi + (beyond : Nat) } else x

/-- The index list, read at issue (R325). -/
def State.gatherList (s : State) (d : Nat) : List Nat :=
  (List.range (gatherCount d)).map fun k => s.scr s.here (s.myGang.scrbase + gatherIdx d + 4 * k) 4

/-- Poisoned bytes of the index list raise POISON at their index (R102). -/
def State.indexPoison (s : State) (d : Nat) : List LaneFault :=
  match (List.range (gatherCount d)).find? fun k => s.scrPoisoned s.here (s.myGang.scrbase + gatherIdx d + 4 * k) 4 with
  | some k => [LaneFault.plain .poison (BitVec.ofNat 64 (gatherIdx d + 4 * k))]
  | none => []

/-- An earlier command still registered writes the index list, which is read at issue (R133). -/
def State.listBusy (s : State) (d : Nat) : Bool :=
  (s.stall s.here).blocked s.nextCmd (((gatherSpans d).take 1).map fun x => s.lockOf x .cartg 0 s.nextCmd)

/-- The first index of NROWS or more raises PERMISSION at its scratchpad offset. -/
def indexFlaw (d : Nat) : Nat → List Nat → List LaneFault
  | _, [] => []
  | k, i :: is =>
    if gatherRows d ≤ i then [LaneFault.plain .permission (BitVec.ofNat 64 (gatherIdx d + 4 * k))]
    else indexFlaw d (k + 1) is

def replayCartg (c : Cmd) (s : State) : Eff :=
  match c.kind with
  | .cartg d _ =>
    .ok (s.countLanded s.here s.myGang.scrbase (gatherBar d) (gatherBarOff d) (gatherCount d * gatherRowB d))
  | _ => .ok s

def performCartg (t : Option Nat) (key : Word) (o : Slot) (s : State) : Eff := do
  let ea := eaScalar o s.regs
  let d ← s.descriptor ea
  let later := s.barFits (gatherBar d) (gatherBarOff d)
  let _ ← s.checkSpans (gatherFlaws d ea) later (gatherChecked d)
  let s ← afterEarlier s
  if s.listBusy d then holdNow else
  let xs := s.gatherList d
  let pages ← s.checkSpans [] (s.indexPoison d ++ indexFlaw d 0 xs) (gatherChecked d)
  enterCart
    { kind := .cartg d xs, eng := .cartg, spans := gatherSpans d, pages := pages, tag := t, key := key,
      payload := gatherCount d * gatherRowB d, out := [] } s

def coreCartg (o : Slot) (s : State) : Eff :=
  let t := tagOf (scalarOf o s.regs o.b)
  let key := tagKey t s.regs.pc
  engineIssue key t replayCartg (performCartg t key o) s
def execCartg (o : Slot) (s : State) := issueLogged (.cartg o) (coreCartg o) s

/-- Gather the rows, packed in the order of the list. -/
def gatherMove (d : Nat) (x : Site) : Nat → List Nat → State → State
  | _, [], s => s
  | k, i :: is, s =>
    let src := gatherTable d + (i * gatherStride d : Nat)
    let bs := (List.range (gatherRowB d)).map fun (j : Nat) => s.engineByte x.stall x.base x.pages false (src + j)
    let s := s.engineRead x.pages ((List.range (gatherRowB d / 16)).map fun (j : Nat) => src + 16 * j)
    gatherMove d x (k + 1) is (cartPut x true (gatherDst d + k * gatherRowB d : Nat) bs s)

/-- CARTG_COMPLETE (R325). -/
def execCartgComplete (stall idx : Nat) (s : State) : Host.Outcome State Fault Refusal :=
  match (s.stall stall).cartq[idx]? with
  | some c =>
    match c.kind with
    | .cartg d xs =>
      if c.running then
        let x := s.siteOf stall c
        let n := gatherCount d * gatherRowB d
        let s := gatherMove d x 0 xs s
        let bytes := s.ownBytesAt x ((List.range n).map fun (i : Nat) => (gatherDst d + i : Int))
        let s := s.countLanded stall x.base (gatherBar d) (gatherBarOff d) n
        happens (s.endCart stall c bytes none)
      else idle s
    | _ => idle s
  | none => idle s

end Sys2Proof.Machine
end

