-- ==== Sys2Proof/Machine/Matrix.lean ====
section
/-!
DEFINITION. Majors 0x80 and 0x81: baling, plane blocks, accumulator banks, batches, draining, activation tables and SCACC
(R330 to R350), and the events of the plane-array queue.
-/

namespace Sys2Proof.Machine

/-! ### BALE (R337 to R339) -/

def baleSrc (d : Nat) : Nat := fld d 17 0
def baleRpitch (d : Nat) : Nat := fld d 81 64
def baleSpitch (d : Nat) : Nat := fld d 113 96
def baleDst (d : Nat) : Nat := fld d 145 128
def baleCmd (d : Nat) : BaleCmd := BaleCmd.of (fld d 383 256)

/-- The flaws of a bale descriptor (R339 step 1). -/
def baleFlaws (d : Nat) (ea : Word) : List LaneFault :=
  let c := baleCmd d
  let at' := fun (x : Nat) => (BitVec.ofNat 64 x : Word)
  flaw (fld d 63 18 = 0 && fld d 95 82 = 0 && fld d 127 114 = 0 && fld d 255 146 = 0 && fld d 511 384 = 0 && c.ok)
    .poison ea ++
  flaw (baleDst d % 32 = 0) .misaligned (at' (baleDst d)) ++
  flaw (c.scloff % 4 = 0) .misaligned (at' c.scloff) ++
  flaw (c.ty != some .s16 || (baleSrc d % 2 = 0 && baleRpitch d % 2 = 0 && baleSpitch d % 2 = 0)) .misaligned
    (at' (baleSrc d))

/-- The intervals of a BALE, where its type is one of the list. -/
def baleSpans (d : Nat) : List Span :=
  let c := baleCmd d
  if c.ty.any baleTypes.contains then
    let hi := baleSrc d + (c.spans - 1) * baleSpitch d + (c.rows - 1) * baleRpitch d + c.rowBytes
    let scl : List Span := if c.scl
      then [{ glb := false, dst := false, lo := c.scloff, hi := (c.scloff + c.spans * c.rows * 64 : Nat) }] else []
    { glb := false, dst := false, lo := baleSrc d, hi := hi } :: scl ++
    [{ glb := false, dst := true, lo := baleDst d, hi := (baleDst d + c.destBytes : Nat) }]
  else []

/-- What a BALE reads and computes at issue (R339 step 4). -/
def State.baleNow (s : State) (d : Nat) : Baled :=
  let c := baleCmd d
  let base := s.myGang.scrbase
  let source := fun sp r =>
    let off := baleSrc d + sp * baleSpitch d + r * baleRpitch d
    ({ bytes := (s.stall s.here).scratch.readN (base + off) c.rowBytes,
       addr := fun i => baleAddr true (off + i : Nat) } : RowSource)
  bale c (baleDst d) source (s.scaleWords s.here base c) (fun sp r i => baleAddr true (scaleOff c sp r i))

/-- The first own-scratchpad offset of a source element or scale word that holds poisoned data, in order of span and row, the
scale words of a row foremost (R102, log 69). -/
def State.baleBad (s : State) (d : Nat) : Option Nat :=
  let c := baleCmd d
  let base := s.myGang.scrbase
  let rows := (List.range c.spans).flatMap fun sp => (List.range c.rows).map fun r => (sp, r)
  rows.findSome? fun p =>
    let words := if c.scl then (List.range 64).map fun i => scaleOff c p.1 p.2 0 + i else []
    let bytes := (List.range c.rowBytes).map fun i => baleSrc d + p.1 * baleSpitch d + p.2 * baleRpitch d + i
    (words ++ bytes).find? fun x => s.scrPoisoned s.here (base + x) 1

/-- The traps of step 4, after its waits; a trap releases the entries and changes nothing else (R214, R339). Data that could
not be rebuilt raise POISON under every command (R102). -/
def baleTraps (c : BaleCmd) (bad : Option Nat) (b : Baled) : Except Stop Unit :=
  if bad.isSome then trapNow .poison (BitVec.ofNat 64 (bad.getD 0))
  else if c.ptrap && b.poison.isSome then trapNow .poison ((b.poison.getD 0) &&& ~~~(1#64 <<< 63))
  else if c.ovf = 3 && b.replaced then trapNow .cvtOverflow
  else .ok ()

/-- The entry of the instruction in issue holds the status that its issue sets. -/
def Group.noteBale (g : Group) (b : Option (Bool × Word × Bool)) : Group :=
  { g with effects := g.effects.map fun e => if e.kind = 4 && e.ric = g.nextRic then { e with bale := b } else e }

def performBale (t : Option Nat) (key : Word) (o : Slot) (s : State) : Eff := do
  let ea := eaScalar o s.regs
  let d ← s.descriptor ea
  let spans := baleSpans d
  let _ ← s.checkSpans [] (baleFlaws d ea) spans
  let s ← afterEarlier s
  let mine := spans.map fun x => s.lockOf x .bale 0 s.nextCmd
  let c := baleCmd d
  let job : Job :=
    { kind := .bale, eng := .bale, spans := spans, pages := [], tag := t, key := key, payload := c.spans * c.blockBytes,
      out := [] }
  s.cartReady job
  if (s.stall s.here).blocked s.nextCmd mine then holdNow
  else
    let b := s.baleNow d
    baleTraps c (s.baleBad d) b
    let s' ← enterCart { job with out := b.blocks } s
    pure (s'.modMe fun g => { g.noteBale (some b.status) with r := g.r.baled (some b.status) })

/-- In replay the status bits that the issue set are in the entry (R225). -/
def coreBale (o : Slot) (s : State) : Eff :=
  let t := tagOf (scalarOf o s.regs o.b)
  let key := tagKey t s.regs.pc
  engineIssue key t (fun _ s => .ok s) (performBale t key o) s
def execBale (o : Slot) (s : State) := issueLogged (.bale o) (coreBale o) s

/-- Write the blocks a command holds. -/
def State.putOut (s : State) (stall base : Nat) : List (Nat × List Byte) → State
  | [] => s
  | w :: ws => State.putOut (s.balerWrite stall (base + w.1) w.2) stall base ws

/-- BALE_COMPLETE (R339): the blocks are written and the command ends. -/
def execBaleComplete (stall idx : Nat) (s : State) : Host.Outcome State Fault Refusal :=
  match (s.stall stall).cartq[idx]? with
  | some c =>
    if c.kind = .bale && c.running then
      let s := s.putOut stall (s.gang c.gang).scrbase c.out
      happens (s.endCart stall c (cellsOf c.out) none)
    else idle s
  | none => idle s

/-! ### PLZ (R341) -/

/-- PLZ's entry is registered and released within its issue: it waits for a free one of the 16 (R173, R341). -/
def corePlz (o : Slot) (s : State) : Eff := do
  let ea := eaScalar o s.regs
  let n := (scalarOf o s.regs o.b).toNat % 2 ^ 14
  let span : Span := { glb := false, dst := true, lo := ea.toNat, hi := (ea.toNat + 32 * n : Nat) }
  let _ ← s.checkSpans [] (flaw (ea.toNat % 32 = 0) .misaligned ea) [span]
  if n = 0 then pure s
  else if 16 ≤ (s.stall s.here).locks.length || (s.stall s.here).blocked s.nextCmd [s.lockOf span .plz 0 s.nextCmd] then
    holdNow
  else do
    let s ← afterEarlier s
    pure (s.balerWrite s.here (s.myGang.scrbase + ea.toNat) (List.replicate (32 * n) 0))
def execPlz (o : Slot) (s : State) := issueLogged (.plz o) (corePlz o) s

/-! ### Banks (R331, R332) -/

/-- The physical bank that a gang's logical bank is bound to. -/
def Stall.bankOf (st : Stall) (gang logical : Nat) : Option Nat :=
  st.banks.findIdx? fun b => b.bound = some (gang, logical)

/-- A queued command that will unbind a logical bank of a gang. -/
def CmdKind.frees (k : CmdKind) (logical : Nat) : Bool :=
  match k with
  | .mdrain o .. => o.free && o.bank = logical
  | _ => false

def Cmd.unbinds (c : Cmd) (st : Stall) (gang logical : Nat) : Bool :=
  c.gang = gang &&
  match c.kind with
  | .mclr o b => o.free && (st.banks[b]?).any fun x => x.bound = some (gang, logical)
  | k => k.frees logical

/-- The bank a command acts on, bound at issue if it is not bound (R332); none while it must wait. -/
def State.bindBank (s : State) (logical : Nat) : Option (State × Nat) :=
  let gk := gangOf s.cur
  let st := s.stall s.here
  if st.planeq.any fun c => c.unbinds st gk logical then none
  else
    match st.bankOf gk logical with
    | some b => some (s, b)
    | none =>
      match st.banks.findIdx? fun b => b.bound.isNone with
      | none => none
      | some b =>
        some (s.modStall s.here fun st => { st with banks := st.banks.set b { Bank.fresh with bound := some (gk, logical) } },
              b)

def State.bank (s : State) (stall b : Nat) : Bank := (s.stall stall).banks.getD b Bank.fresh
def State.setBank (s : State) (stall b : Nat) (x : Bank) : State :=
  s.modStall stall fun st => { st with banks := st.banks.set b x }
def Bank.cleared (b : Bank) : Bank := { Bank.fresh with bound := b.bound }
def Bank.unbound (b : Bank) : Bank := { b with bound := none }
def Bank.getRa (b : Bank) (i : Nat) : Nat := (kget 0x3F b.ra i).toNat
def Bank.getRb (b : Bank) (n : Nat) : Nat := (kget 0x3F b.rb n).toNat
/-- ACC[i][n] as an integer. -/
def Bank.accAt (b : Bank) (k : Nat) : Int := (kget 0 b.acc k).toInt

/-! ### MLOOP (R342, R343) -/

/-- The weight of plane p of P planes; those of an O4 operand (R68, R342). -/
def planeWeight (o4 : Bool) (planes p : Nat) : Int :=
  let w : Int := 2 ^ p
  if o4 then (if p = 3 ∨ p = 7 then -w else w) else if p = planes - 1 then -w else w

/-- One operand block of a K-step: its plane words by plane and row, and its exponents (R330). -/
structure Block where
  words : List (List Nat)
  exps : List Nat
  deriving DecidableEq, Repr

def State.block (s : State) (stall off planes : Nat) : Block :=
  { words := (List.range planes).map fun p => (List.range 32).map fun r => s.scr stall (off + (p * 32 + r) * 32) 32,
    exps := (List.range 32).map fun r => s.scr stall (off + planes * 1024 + r) 1 % 128 }

/-- The dot product of row i of A and column n of B in weighted planes. -/
def blockDot (a b : Block) (ao4 bo4 : Bool) (i n : Nat) : Int :=
  let pa := a.words.length
  let pb := b.words.length
  ((List.range pa).map fun p =>
    let x := (a.words.getD p []).getD i 0
    if x = 0 then 0
    else ((List.range pb).map fun q =>
      planeWeight ao4 pa p * planeWeight bo4 pb q * (popN 256 (x &&& (b.words.getD q []).getD n 0) : Nat)).sum).sum

/-- The recorded exponents after a K-step: a differing one becomes 0x7F. -/
def mixExps (set : Bool) (old : KMap (BitVec 7)) (es : List Nat) : KMap (BitVec 7) :=
  (List.range 32).filterMap fun i =>
    let e : BitVec 7 := BitVec.ofNat 7 (es.getD i 0)
    let was := kget 0x3F old i
    let x := if !set then e else if e = was then was else 0x7F
    if x = 0x3F then none else some (i, x)

/-- One K-step (R342). -/
def Bank.kstep (bank : Bank) (a b : Block) (ao4 bo4 : Bool) : Bank :=
  { bank with
    acc := (List.range 1024).filterMap fun k =>
      let x : BitVec 48 := kget 0 bank.acc k + BitVec.ofInt 48 (blockDot a b ao4 bo4 (k / 32) (k % 32))
      if x = 0 then none else some (k, x)
    ra := mixExps bank.set bank.ra a.exps
    rb := mixExps bank.set bank.rb b.exps
    set := true }

def mloopSteps (c : Word) : Nat := (c.extractLsb' 0 16).toNat
def mloopAinc (c : Word) : Nat := (c.extractLsb' 16 16).toNat * 32
def mloopBinc (c : Word) : Nat := (c.extractLsb' 32 16).toNat * 32

/-- The K-steps of a command from step j on: n are left. -/
def State.mloopRun (s : State) (stall base : Nat) (o : Slot) (a b : Nat) (c : Word) : Nat → Nat → Bank → Bank
  | 0, _, bank => bank
  | n + 1, j, bank =>
    let x := s.block stall (base + a + j * mloopAinc c) (o.pam + 1)
    let y := s.block stall (base + b + j * mloopBinc c) (o.pbm + 1)
    State.mloopRun s stall base o a b c n (j + 1) (bank.kstep x y o.ao4 o.bo4)

/-- An operand's interval, from its first block to the end of its last (R343). -/
def mloopSpan (a : Word) (steps inc planes : Nat) : Span :=
  { glb := false, dst := false, lo := a.toNat,
    hi := if steps = 0 then (a.toNat : Int) else (a.toNat + (steps - 1) * inc + planes * 1024 + 32 : Nat) }

/-- Run an MLOOP on its bank. -/
def State.runMloop (s : State) (stall gang : Nat) (o : Slot) (a b c : Word) (bank : Nat) : State :=
  s.setBank stall bank
    (s.mloopRun stall (s.gang gang).scrbase o a.toNat b.toNat c (mloopSteps c) 0 (s.bank stall bank))

/-- A plane of a block is skipped: the zero-map bits of its 32 words are set (R95, R343). -/
def State.planeSkipped (s : State) (stall off p : Nat) : Bool :=
  (List.range 32).all fun r => kget false (s.stall stall).zmap ((off + (p * 32 + r) * 32) / 32)

/-- The passes that an MLOOP performs, and those that it skips (R193, R343). -/
def State.mloopPasses (s : State) (stall base : Nat) (o : Slot) (a b c : Word) : Nat × Nat :=
  let kept := fun (off planes : Nat) => ((List.range planes).filter fun p => !s.planeSkipped stall off p).length
  let n := ((List.range (mloopSteps c)).map fun j =>
    kept (base + a.toNat + j * mloopAinc c) (o.pam + 1) * kept (base + b.toNat + j * mloopBinc c) (o.pbm + 1)).sum
  (n, mloopSteps c * ((o.pam + 1) * (o.pbm + 1)) - n)

/-- The passes enter the stall's counts (R193). -/
def State.countPasses (s : State) (stall gang : Nat) (o : Slot) (a b c : Word) : State :=
  let n := s.mloopPasses stall (s.gang gang).scrbase o a b c
  (s.tallied stall 9 n.1).tallied stall 10 n.2

/-- A command has acted on the banks; in replay the images name the commands they cover one by one (R333, log 22). -/
def State.noteActed (s : State) (gang id : Nat) : State :=
  if (s.gang gang).phase = .replay then s.modGang gang fun g => { g with acted := id :: g.acted } else s

/-- Replay acts on the banks only where the restored image does not cover the command (R333), once it finds a bank (R332). -/
def replayPlane (logical : Nat) (run : State → Nat → State) (c : Cmd) (s : State) : Eff :=
  if s.myGang.covered c.id then .ok s
  else
    match s.bindBank logical with
    | some (s', b) => .ok ((run s' b).noteActed (gangOf s.cur) c.id)
    | none => holdNow

def performMloop (key : Word) (o : Slot) (s : State) : Eff := do
  let r := s.regs
  let a := r.getS o.a.num
  let b := r.getS o.b.num
  let c := scalarOf o r o.c
  need (c.extractLsb' 48 16 = 0) .illegalOp
  let n := mloopSteps c
  let spans := [mloopSpan a n (mloopAinc c) (o.pam + 1), mloopSpan b n (mloopBinc c) (o.pbm + 1)]
  let _ ← s.checkSpans [] (flaw (a.toNat % 32 = 0) .misaligned a ++ flaw (b.toNat % 32 = 0) .misaligned b) spans
  match s.bindBank o.bank with
  | none => holdNow
  | some (s', bank) =>
    enterPlane true
      { kind := .mloop o a b c bank, eng := .mloop, spans := spans, pages := [], tag := none, key := key,
        payload := 0, out := [] } s'

def coreMloop (o : Slot) (s : State) : Eff :=
  let r := s.regs
  let key := r.batchOpen.setWidth 64
  let run := fun (s : State) b => s.runMloop s.here (gangOf s.cur) o (r.getS o.a.num) (r.getS o.b.num) (scalarOf o r o.c) b
  engineIssue key none (replayPlane o.bank run) (performMloop key o) s
def execMloop (o : Slot) (s : State) := issueLogged (.mloop o) (coreMloop o) s

/-! ### MCLR (R344) -/

def State.runMclr (s : State) (stall bank : Nat) (free : Bool) : State :=
  let b := (s.bank stall bank).cleared
  s.setBank stall bank (if free then b.unbound else b)

def performMclr (key : Word) (o : Slot) (s : State) : Eff :=
  match s.bindBank o.bank with
  | none => holdNow
  | some (s', bank) =>
    enterPlane false
      { kind := .mclr o bank, eng := .mloop, spans := [], pages := [], tag := none, key := key, payload := 0,
        out := [] } s'

def coreMclr (o : Slot) (s : State) : Eff :=
  let key := s.regs.pc
  engineIssue key none (replayPlane o.bank fun s b => s.runMclr s.here b o.free) (performMclr key o) s
def execMclr (o : Slot) (s : State) := issueLogged (.mclr o) (coreMclr o) s

/-! ### Images and batches (R154, R333, R345) -/

/-- The commands of a gang below this number have run. -/
def State.ranBelow (s : State) (stall gang : Nat) : Nat :=
  ((s.stall stall).planeq.filter fun c => c.gang = gang).foldl (fun m c => min m c.id) s.nextCmd

/-- The image of a gang's bound banks (R333). Commands run in the order of their numbers, so that the image covers those below
one number; while the gang replays, it covers what the image before it did and the commands that have acted since (log 22). -/
def State.imageBanks (s : State) (stall gang : Nat) : State :=
  let bs := (s.stall stall).banks.filterMap fun b =>
    match b.bound with
    | some (g, n) => if g = gang then some (n, b) else none
    | none => none
  let below := s.ranBelow stall gang
  s.modGang gang fun g =>
    let due := g.imageDue.filter fun m => below < m
    if g.phase = .replay then { g with bankImages := bs, covers := (g.covers ++ g.acted).eraseDups, imageDue := due }
    else { g with bankImages := bs, imaged := below, covers := [], acted := [], imageDue := due }

/-- An image that is due is taken once the gang's commands before it have run (R333). -/
def State.imageWhenDue (s : State) (stall gang : Nat) : State :=
  if (s.gang gang).imageDue.any fun m => m ≤ s.ranBelow stall gang then s.imageBanks stall gang else s

/-- Batches of a group have completed since they were these: for each an image is due after the commands before its fence
(R333). -/
def State.imageAfter (s : State) (stall gang grp : Nat) (was : List Batch) : State :=
  let done := was.filter fun b => (s.group grp).batches.all fun x => x.number != b.number
  (s.modGang gang fun g => { g with imageDue := (g.imageDue ++ done.map Batch.mark).eraseDups }).imageWhenDue stall gang

def coreMfence (o : Slot) (s : State) : Eff :=
  let g := s.me
  if 8 ≤ g.batches.length then holdNow
  else
    let n := g.r.batchOpen
    let bs := g.batches ++ [{ number := n, cmds := g.openCmds, mark := s.nextCmd }]
    let g' := { g with r := { g.r.setDst o.dst (n.setWidth 64) with batchOpen := n + 1 }, batches := bs, openCmds := [] }
    .ok ((s.setMe g'.settleBatches).imageAfter s.here (gangOf s.cur) s.cur bs)
def execMfence (o : Slot) (s : State) := issueLogged (.mfence o) (coreMfence o) s

/-- A batch number has been reached (R345). -/
def batchReached (done n : BitVec 16) : Bool := (done - n).toNat < 0x8000

def coreMwait (o : Slot) (s : State) : Eff :=
  let r := s.regs
  let n := (scalarOf o r o.b).extractLsb' 0 16
  if batchReached r.batchDone n then .ok (s.acquireAt s.here)
  else
    let ahead := (r.batchOpen - n).toNat
    if 1 ≤ ahead && ahead ≤ 8 then holdNow else trapNow .illegalOp
def execMwait (o : Slot) (s : State) := issueLogged (.mwait o) (coreMwait o) s

/-! ### MDRAIN (R346, R347) -/

/-- An exact quotient by a power of two, rounded to nearest, ties to even. -/
def rnei (x : Int) (r : Nat) : Int :=
  let d : Int := 2 ^ r
  let q := x / d
  let rem := x % d
  if 2 * rem > d ∨ (2 * rem = d ∧ q % 2 = 1) then q + 1 else q

/-- An integer held to 48 bits. -/
def wrap48 (x : Int) : Int := sext (wrapInt 48 x) 48

/-- The activation table's value at x (R184). -/
def ActTable.apply (t : ActTable) (x : Int) : Int :=
  let w : Int := 2 ^ t.shift.toNat
  let i := min 63 (max 0 (x / w + 32))
  let xi := (i - 32) * w
  let b := (t.base.getD i.toNat 0).toInt
  let m := (t.slope.getD i.toNat 0).toInt
  wrap48 (b + m * (x - xi) / 2 ^ t.fs.toNat)

/-- The fields of C (R336). -/
def drainPitch (c : Word) : Nat := (c.extractLsb' 0 16).toNat
def drainMul (c : Word) : Int := (c.extractLsb' 16 16).toInt
def drainRsh (c : Word) : Nat := (c.extractLsb' 32 6).toNat
def drainZp (c : Word) : Int := (c.extractLsb' 40 8).toInt

/-- One element through the stages (R346). -/
def drainValue (o : Slot) (c : Word) (t : ActTable) (bias acc : Int) : Nat :=
  let y := if o.bias then wrap48 (acc + bias) else acc
  let y := if o.act then t.apply y else y
  let y := if o.rq then rnei (y * drainMul c) (drainRsh c) + drainZp c else y
  if o.ty = .s64 then wrapInt 64 y else wrapInt o.ty.bits (satInt o.ty y)

/-- The bytes of a row of 32 packed elements (R53). -/
def packRow (bits : Nat) (xs : List Nat) : List Byte :=
  leBytes (4 * bits) (xs.reverse.foldl (fun acc x => acc * 2 ^ bits + x) 0)

/-- The writes of an MDRAIN, rows in ascending order, then the trailer. -/
def drainWrites (o : Slot) (dst : Nat) (c : Word) (t : ActTable) (bias : Nat → Int) (b : Bank) : List (Nat × List Byte) :=
  let rows := (List.range 32).map fun i =>
    (dst + i * drainPitch c,
     packRow o.ty.bits ((List.range 32).map fun n => drainValue o c t (bias n) (b.accAt (32 * i + n))))
  let trailer := (List.range 32).map (fun i => BitVec.ofNat 8 (b.getRa i)) ++
    (List.range 32).map (fun i => BitVec.ofNat 8 (b.getRb i))
  if o.exp then rows ++ [(dst + 32 * drainPitch c, trailer)] else rows

/-- CLR and FREE after the reading (R346). -/
def State.drainEnd (s : State) (stall bank : Nat) (o : Slot) : State :=
  let b := s.bank stall bank
  let b := if o.clr then b.cleared else b
  s.setBank stall bank (if o.free then b.unbound else b)

def drainSpans (o : Slot) (dst : Word) (bias : Word) (c : Word) : List Span :=
  let rowEnd := dst.toNat + 31 * drainPitch c + 4 * o.ty.bits
  let hi := if o.exp then max rowEnd (dst.toNat + 32 * drainPitch c + 64) else rowEnd
  let src : List Span := if o.bias
    then [{ glb := false, dst := false, lo := bias.toNat, hi := (bias.toNat + 128 : Nat) }] else []
  { glb := false, dst := true, lo := dst.toNat, hi := hi } :: src

def performMdrain (key : Word) (o : Slot) (s : State) : Eff := do
  let r := s.regs
  let dst := eaScalar o r
  let bias := r.getS o.b.num
  let c := scalarOf o r o.c
  need (c.extractLsb' 38 2 = 0 && c.extractLsb' 48 16 = 0) .illegalOp
  let spans := drainSpans o dst bias c
  let _ ← s.checkSpans []
    (flaw (dst.toNat % 16 = 0 && drainPitch c % 16 = 0) .misaligned dst ++
     flaw (!o.bias || bias.toNat % 4 = 0) .misaligned bias) spans
  match s.bindBank o.bank with
  | none => holdNow
  | some (s', bank) =>
    enterPlane true
      { kind := .mdrain o dst.toNat bias c bank, eng := .mdrain, spans := spans, pages := [], tag := none, key := key,
        payload := 128 * o.ty.bits + (if o.exp then 64 else 0), out := [] } s'

def coreMdrain (o : Slot) (s : State) : Eff :=
  let key := s.regs.batchOpen.setWidth 64
  engineIssue key none (replayPlane o.bank fun s b => s.drainEnd s.here b o) (performMdrain key o) s
def execMdrain (o : Slot) (s : State) := issueLogged (.mdrain o) (coreMdrain o) s

/-! ### The plane-array queue (R153, R343, R344, R347) -/

/-- The head of the plane-array queue when R131 and R133 let it run. -/
def State.planeHead (s : State) (stall : Nat) : Option Cmd :=
  let st := s.stall stall
  match st.planeq with
  | [] => none
  | c :: _ => if st.blocked c.id (st.locks.filter fun l => l.cmd = c.id) || s.cmdBehind c then none else some c

/-- The end of a plane-array command: its entries, its entry in the log, TL and its batch (R134, R154, R333). -/
def State.endPlane (s : State) (stall : Nat) (c : Cmd) (counted : Bool) (bytes : Memory) : State :=
  let was := (s.group c.grp).batches
  let s := (s.noteActed c.gang c.id).modStall stall fun st => { st.dropLocks c.id with planeq := st.planeq.drop 1 }
  let s := s.modGroup c.grp fun g =>
    let g := g.logDone c bytes none
    if counted then { (g.endCmd c.id) with tl := g.tl - 1 } else g
  s.imageAfter stall c.gang c.grp was

def execMloopComplete (stall : Nat) (s : State) : Host.Outcome State Fault Refusal :=
  match s.planeHead stall with
  | some k =>
    match k.kind with
    | .mloop o a b c bank =>
      happens (((s.countPasses stall k.gang o a b c).runMloop stall k.gang o a b c bank).endPlane stall k true [])
    | _ => idle s
  | none => idle s

def execMclrRun (stall : Nat) (s : State) : Host.Outcome State Fault Refusal :=
  match s.planeHead stall with
  | some k =>
    match k.kind with
    | .mclr o bank => happens ((s.runMclr stall bank o.free).endPlane stall k false [])
    | _ => idle s
  | none => idle s

/-- The bytes an MDRAIN writes. -/
def State.drainOut (s : State) (stall gang : Nat) (o : Slot) (dst : Nat) (bias c : Word) (bank : Nat) :
    List (Nat × List Byte) :=
  let g := s.gang gang
  let biasAt := fun n => sext (s.scr stall (g.scrbase + bias.toNat + 4 * n) 4) 32
  drainWrites o dst c (g.tables.getD o.actt ActTable.identity) biasAt (s.bank stall bank)

/-- Write scratchpad bytes in order. -/
def State.putWrites (s : State) (stall base : Nat) : List (Nat × List Byte) → State
  | [] => s
  | w :: ws => State.putWrites (s.scrWrite stall (base + w.1) w.2) stall base ws

def execMdrainComplete (stall : Nat) (s : State) : Host.Outcome State Fault Refusal :=
  match s.planeHead stall with
  | some k =>
    match k.kind with
    | .mdrain o dst bias c bank =>
      let out := s.drainOut stall k.gang o dst bias c bank
      let s := s.putWrites stall (s.gang k.gang).scrbase out
      happens ((s.drainEnd stall bank o).endPlane stall k true (cellsOf out))
    | _ => idle s
  | none => idle s

/-! ### ACTLD (R348) -/

/-- An MDRAIN of the gang that uses a table is queued or running. -/
def State.tableInUse (s : State) (t : Nat) : Bool :=
  (s.stall s.here).planeq.any fun c =>
    c.gang = gangOf s.cur && match c.kind with | .mdrain o .. => o.act && o.actt = t | _ => false

/-- The header and the entries follow R184. -/
def actHeaderOk (w : Nat) : Bool := w % 64 ≤ 47 && fld w 7 6 = 0 && fld w 63 13 = 0
def actEntryOk (w : Nat) : Bool := fld w 63 48 = 0

/-- The first bad word of a table's 65. -/
def badActWord (ws : List Nat) : Option Nat :=
  if actHeaderOk (ws.getD 0 0) then ((ws.drop 1).findIdx? fun w => !actEntryOk w).map (· + 1) else some 0

def actTableOf (ws : List Nat) : ActTable :=
  let h := ws.getD 0 0
  { shift := BitVec.ofNat 6 h, fs := BitVec.ofNat 5 (h / 256), base := (ws.drop 1).map fun w => BitVec.ofNat 32 w,
    slope := (ws.drop 1).map fun w => BitVec.ofNat 16 (w / 2 ^ 32) }

def coreActld (o : Slot) (s : State) : Eff := do
  let ea := eaScalar o s.regs
  let t := (scalarOf o s.regs o.b).toNat % 4
  if s.tableInUse t then holdNow
  else
    let off ← wholeCheck (s.ownRecord (gangOf s.cur) s.here ea 520 8 .read)
    let ws := (List.range 65).map fun i => s.scr s.here (off + 8 * i) 8
    match badActWord ws with
    | some i => trapNow .poison (ea + BitVec.ofNat 64 (8 * i))
    | none => pure (s.modGang (gangOf s.cur) fun g => { g with tables := g.tables.set t (actTableOf ws) })
def execActld (o : Slot) (s : State) := issueLogged (.actld o) (coreActld o) s

/-! ### SCACC (R70, R349) -/

/-- R70 for one lane: the accumulator element, the two exponents, the running sum. -/
def scacc (p : Int) (ea eb : Nat) (acc : Lane) : Lane :=
  if ea = 0x7F ∨ eb = 0x7F then canonNan32
  else
    let x := (f32val (rne32 (Number.ofInt p))).scale ((ea : Int) + eb - 126)
    rne32 ((f32val acc).add 0 x)

def coreScacc (o : Slot) (s : State) : Eff :=
  let r := s.regs
  .ok (s.setRegs (r.mapLanes .f32 o.dst fun l =>
    let p := sext ((r.getVV o.a.num l).toNat % 2 ^ 48) 48
    let e := laneOf o r o.b .f32 l
    (scacc p (e % 128) (e / 256 % 128) (r.getV o.dst.num l)).toNat))
def execScacc (o : Slot) (s : State) := issueLogged (.scacc o) (coreScacc o) s

end Sys2Proof.Machine
end

