-- ==== Sys2Proof/Machine/Gang.lean ====
section
/-!
DEFINITION. Majors 0xA0 and 0xA1: LAUNCH (R139, R376), GBAR, STINT and EXIT (R377 to R379), FETCHW (R380), SPAWN and LREFILL
(R40, R381, R382).
-/

namespace Sys2Proof.Machine

/-! ### Appends (R139, R190) -/

/-- A launch identifier in use: queued, or with a gang resident. -/
def State.lidBusy (s : State) (lid : BitVec 32) : Bool :=
  lid = 0 || (s.lq.any fun q => q.2.entries.any fun e => e.2 = lid) || s.gangs.any fun g => lidOf g.1 = lid

/-- The first identifier from a candidate on that may be given out: n bounds the candidates passed over. -/
def State.freeLid (s : State) : Nat → BitVec 32 → BitVec 32
  | 0, x => x
  | n + 1, x => if s.lidBusy x then State.freeLid s n (x + 1) else x

/-- How many identifiers can be in use, and 0. -/
def State.lidBound (s : State) : Nat := s.gangs.length + (s.lq.map fun q => q.2.entries.length).sum + 1

/-- The answer to an append. -/
inductive Append where
  | accepted (lid : BitVec 32)
  | disabled
  | full
  deriving DecidableEq, Repr

/-- One append at the panel distributor (R139). -/
def State.append (s : State) (q : Nat) (block : Word) : State × Append :=
  let x := s.queue q
  if !x.en then (s.setQueue q { x with off := true }, .disabled)
  else if 256 ≤ x.entries.length then (s.setQueue q { x with full := true }, .full)
  else
    let lid := s.freeLid s.lidBound s.nextLid
    ({ s.setQueue q { x with entries := x.entries ++ [(block, lid)] } with nextLid := lid + 1 }, .accepted lid)

/-- What LAUNCH's sd receives (R376). -/
def Append.word : Append → Word
  | .accepted lid => lid.setWidth 64
  | .disabled => 0x100000000
  | .full => 0x200000000

def performLaunch (o : Slot) (s : State) : Except Stop (State × List RegWrite) :=
  let b := scalarOf o s.regs o.b
  if b.toNat / 64 ≠ 0 then .ok (s, [.s o.dst.num 0x300000000])
  else
    let p := s.append b.toNat (s.regs.getS o.a.num)
    .ok (p.1, [.s o.dst.num p.2.word])

def coreLaunch (o : Slot) (s : State) : Eff := logged 1 (s.regs.getS o.a.num) (performLaunch o) s
def execLaunch (o : Slot) (s : State) := issueLogged (.launch o) (coreLaunch o) s

/-! ### GBAR, STINT, EXIT -/

/-- GBAR is no task's (R377); its own effect is the release, and its arrival is counted at the section's acceptance. -/
def coreGbar (s : State) : Eff :=
  if s.regs.taskId ≠ 0 then trapNow .illegalOp else boundary ownRelease .gbar s
def execGbar (o : Slot) (s : State) := issueLogged (.gbar o) coreGbar s

/-- An MCLR that a group issued is still in the plane-array queue. -/
def State.clearsQueued (s : State) : Bool :=
  (s.stall s.here).planeq.any fun c => c.grp = s.cur && (match c.kind with | .mclr .. => true | _ => false)

/-- STINT's own effect: nothing of the group is outstanding, and the banks are imaged (R333, R378). -/
def ownStint (s : State) : Eff :=
  if s.me.cp ≠ 0 || s.me.tl ≠ 0 || s.clearsQueued then holdNow else .ok (s.imageBanks s.here (gangOf s.cur))
def execStint (o : Slot) (s : State) := issueLogged (.stint o) (boundary ownStint .issue) s

/-- What EXIT credits is released at once, since no section is kept (R45, R379). -/
def State.releaseAll (s : State) : State :=
  let g := s.me
  let s := s.modMe fun g => { g with deliveries := [], tasks := [], stage42 := .none, incomplete := none }
  let s := g.deliveries.foldl (fun s d => s.release s.cur d) s
  g.tasks.foldl (fun s t => s.publish s.cur t.1 t.2) s

/-- The end of a group by EXIT (R379): its task's record, its slot. -/
def State.exitGroup (s : State) : State :=
  let s := s.mergeGroup s.cur
  let t := s.regs.taskId
  let s := s.releaseAll
  let s := if t = 0 then s else s.closeTask s.cur t 3 0
  s.leaveSlot s.cur .exited

/-- The end of an adopted task by EXIT: its record, then the adoption exit (R47, R188, R379). -/
def State.exitTask (s : State) : State :=
  let s := s.closeTask s.cur s.regs.taskId 3 0
  s.leaveTask (s.me.ric + 1)

/-- EXIT (R379): the waits and the credit of a boundary; a boundary left incomplete before it comes first (R214). -/
def coreExit (s : State) : Eff :=
  let g := s.me
  if g.r.serial then trapNow .illegalOp
  else if g.ld ≠ 0 || g.st ≠ 0 || !g.zlr.isEmpty then holdNow
  else if g.r.depth ≠ 0 && (g.cp ≠ 0 || g.tl ≠ 0) then holdNow
  else if g.releaseFails then s.reportStore
  else
    let owed := g.incomplete.isSome && g.incomplete != some g.r.pc
    match credit owed (owed || g.r.depth ≠ 0) s with
    | .error e => .error e
    | .ok _ =>
      if owed then .error (.holdKeep none (s.closeStint .issue g.r.pc g.ric))
      else .ok (if g.r.depth = 0 then s.exitGroup else s.exitTask)
def execExit (o : Slot) (s : State) := issueLogged (.exit o) coreExit s

/-! ### FETCHW -/

/-- Stage deliveries that stay in the gang: they have no check to pass (R45). -/
def State.stageOwn (s : State) (parts : List Parcel) : State :=
  s.modMe fun g =>
    { g with deliveries := g.deliveries ++ parts.map fun p =>
        { parts := [p], checked := true, bound := [gangOf s.cur], failed := none, store := none } }

/-- The 64-byte area lies inside one receive range of the gang (R151). -/
def State.mailboxOk (s : State) (a : Word) : Bool :=
  s.myLaunch.roles.any fun r => r.rranges.any fun x => x.off ≤ a.toNat && a.toNat + 64 ≤ x.off + x.len

def coreFetchw (o : Slot) (s : State) : Eff := do
  let ea := eaScalar o s.regs
  need (s.mailboxOk ea) .scrBounds ea
  need (ea.toNat % 32 = 0) .misaligned ea
  pure (s.stageOwn [.fetchw ea.toNat])
def execFetchw (o : Slot) (s : State) := issueLogged (.fetchw o) (coreFetchw o) s

/-! ### SPAWN (R38, R143, R381) -/

/-- The items of the active lanes, in ascending order. -/
def spawnItems (o : Slot) (g : Group) : List Parcel :=
  let r := g.r
  let pc := if o.b.kind = .i then dispTarget o r.pc else r.getS o.b.num
  r.active.map fun l => .item pc (r.getVV o.a.num l) g.stage

def coreSpawn (o : Slot) (s : State) : Eff :=
  let g := s.me
  let items := spawnItems o g
  if 512 < g.stagedItems + items.length then
    .error (.trap { cause := .deadlock, lanes := g.r.exm, addr := 0, wr := false, fetch := false, mal := false })
  else .ok (s.stageOwn items)
def execSpawn (o : Slot) (s : State) := issueLogged (.spawn o) (coreSpawn o) s
def execSpawnIndirect (o : Slot) (s : State) := issueLogged (.spawnIndirect o) (coreSpawn o) s

/-! ### LREFILL (R40, R382, R425) -/

/-- An item of a gang and stage for an instruction address. -/
def Item.matches (i : Item) (gang stage : Nat) (pc : Word) : Bool := i.gang = gang && i.stage = stage && i.pc = pc

/-- The oldest of some items in credit order (R40, R142). -/
def oldestItem : List Item → Option Item
  | [] => none
  | i :: is => some (is.foldl (fun a b => if b.seq < a.seq then b else a) i)

/-- The matching items of a gang on the stall that runs it: those in bins, those in the queue, and those in the spill area of
the gang's own logical stall (R142, R227). -/
def State.itemsFor (s : State) (stall gang stage : Nat) (pc : Word) : List Item :=
  let st := s.stall stall
  ((st.bins.flatMap fun b => b.2.items) ++ st.itemq ++ (s.stall (s.gang gang).stall).spill).filter
    fun i => i.matches gang stage pc

/-- Take an item out of a bin; a bin left empty is free. -/
def Bin.without (b : Bin) (i : Item) : Bin :=
  let items := b.items.erase i
  if items.isEmpty then Bin.empty else { b with items := items }

/-- Take an item out of the place that holds it: a bin, the queue, the spill area. -/
def State.takeItem (s : State) (stall : Nat) (i : Item) : State :=
  let st := s.stall stall
  match st.bins.find? fun b => b.2.items.contains i with
  | some (n, b) => s.setStall stall { st with bins := kset Bin.empty st.bins n (b.without i) }
  | none =>
    if st.itemq.contains i then s.setStall stall { st with itemq := st.itemq.erase i }
    else s.modStall (s.gang i.gang).stall fun st => { st with spill := st.spill.erase i }

/-- The oldest item that LREFILL would take stands in a spill area that cannot be read (R231). -/
def State.spillDead (s : State) (stall gang stage : Nat) (pc : Word) : Bool :=
  s.recordsDead gang &&
  (oldestItem (s.itemsFor stall gang stage pc)).any fun i => (s.stall (s.gang gang).stall).spill.contains i

/-- Mark the intake entry of an item with the group that has taken it (R425). -/
def markTaken (i : Item) (grp : Nat) : List Intake → List Intake
  | [] => []
  | e :: es =>
    if e.taker = none && e.parcel.isItem && e.seq = i.seq then { e with taker := some grp } :: es
    else e :: markTaken i grp es

/-- Fill lanes in ascending order while items remain: the state and the lanes with their payloads. -/
def State.refill (s : State) (stall gang stage : Nat) (pc : Word) : List Nat → State × List (Nat × Word)
  | [] => (s, [])
  | l :: ls =>
    match oldestItem (s.itemsFor stall gang stage pc) with
    | none => (s, [])
    | some i =>
      let s := s.takeItem stall i
      let s := s.modGang gang fun g => { g with intake := markTaken i s.cur g.intake }
      let q := State.refill s stall gang stage pc ls
      (q.1, (l, i.payload) :: q.2)

/-- The register writes of filled lanes (R39, R40). -/
def refillWrites (xs : List (Nat × Word)) : List RegWrite :=
  xs.flatMap fun p => [.v 0 p.1 (p.2.extractLsb' 0 32), .v 1 p.1 (p.2.extractLsb' 32 32)]

/-- The TGT bit of the slot in issue, from the line that the stall holds. -/
def State.atTarget (s : State) : Bool :=
  let pc := s.regs.pc
  match (s.stall s.here).lines.find? fun l => l.1 = (lineAddr pc).toNat with
  | some l => lineTgt l.2 (pc.extractLsb' 0 3).toNat
  | none => false

def coreLrefill (s : State) : Eff :=
  let g := s.me
  let pc := g.r.pc
  if !s.atTarget then trapNow .illegalOp
  else
    match g.fromLog 5 pc with
    | some (some e) => .ok (s.takeEntry e)
    | some none => diverge s
    | none =>
      if g.ld ≠ 0 then holdNow
      else if s.spillDead s.here (gangOf s.cur) g.stage pc then
        .error (.holdKeep none (s.endGang (gangOf s.cur) Cause.poison.code g.r.pc s.cur))
      else
        let p := s.refill s.here (gangOf s.cur) g.stage pc ((List.range 32).filter fun l => !g.r.exm.getLsbD l)
        let exm := g.r.exm ||| maskOf (p.2.map Prod.fst)
        let ws := refillWrites p.2
        match p.1.record { Effect.of 5 g pc ws with exm := some exm } with
        | .error e => .error e
        | .ok s' =>
          let s' := s'.setRegs { s'.regs.writes ws with exm := exm }
          .ok (if p.2.isEmpty then s' else s'.acquireAt s'.here)
def execLrefill (o : Slot) (s : State) := issueLogged (.lrefill o) coreLrefill s

end Sys2Proof.Machine
end

