-- ==== Sys2Proof/Machine/Layout.lean ====
section
/-!
DEFINITION. The bytes of state whose content the spec gives and whose layout it does not (R101, R177, R235, R236, R245; log 50):
free values, each a function of that content and of the offset alone, so that two reads of one state agree.
-/

namespace Sys2Proof.Config

/-- The CLB at 0x8_1000 and the micro-TLB at 0x8_2000 of a stall's image (R236). -/
opaque clbByte : List (Nat × Nat × Nat × Nat × Nat) → Nat → BitVec 8
opaque utlbByte : List Machine.TlbEntry → Nat → BitVec 8
/-- The item queue and the packing bins at 0xA_0000 (R236). -/
opaque itemByte : List Machine.Item → List (Nat × Machine.Bin) → Nat → BitVec 8
/-- The record area of a barn, by the gangs and groups of its partner stables (R14, R177 to R182), and where in it the records of
one group stand, with what they hold. -/
opaque recordByte : List (Nat × Machine.Gang) → List (Nat × Machine.Group) → Nat → BitVec 8
opaque groupByte : Nat → Machine.Group → Nat → Option (BitVec 8)
/-- The attestation report at 0x5000 of BAR0 (R245). -/
opaque reportByte : Machine.Report → Nat → BitVec 8
/-- A barn's ring state (R13, R103, R229, R235): of each of the ring's 8 barns, whether it is lost, moved, beyond rebuilding. -/
opaque ringWord : List (Bool × Bool × Bool) → BitVec 64

end Sys2Proof.Config

namespace Sys2Proof.Machine

/-- A byte of a barn's record area. What belongs to a group that is parked with its launch held is a function of that group alone,
and so reads stably (R241). -/
def State.recordByte (s : State) (b off : Nat) : Byte :=
  let mine := s.groups.filter fun p => partnerBarn (stableOf (s.gang (gangOf p.1)).stall) = b
  let held := mine.filter fun p => p.2.standing.isParked && s.preempted (lidOf (gangOf p.1))
  match held.findSome? fun p => Config.groupByte p.1 p.2 off with
  | some x => x
  | none => Config.recordByte (s.gangs.filter fun p => partnerBarn (stableOf p.2.stall) = b) mine off

/-- A barn's ring state. -/
def State.ringWord (s : State) (b : Nat) : Word :=
  Config.ringWord ((List.range 8).map fun j =>
    let x := s.barn (b / 8 * 8 + j)
    (x.lost, x.moved, x.dead))

end Sys2Proof.Machine
end

