-- ==== Sys2Proof/Machine/Parity.lean ====
section
/-!
DEFINITION. The stacks of the barns and their parity rings (R97, R98, R103): what lies at a stack offset, the parity line of a
ring, and the line that reconstruction gives.
-/

namespace Sys2Proof.Machine

/-! ### The stack of a barn (R97) -/

/-- What a byte of a stack holds: the areas stand from the top downwards (R97). -/
inductive StackCell where
  | general (pa : Nat)
  | shadow (off : Nat)
  | loft (off : Nat)
  | record (off : Nat)
  deriving DecidableEq, Repr

/-- The physical address at an offset of a barn's general area (R98). -/
def generalAt (b x : Nat) : Nat :=
  let q := x / 0x10000
  (288 * q + (b + 288 - 97 * q % 288) % 288) * 0x10000 + x % 0x10000

/-- The place that a barn has in its domain (R104). -/
def domainPlace (k b : Nat) : Nat := ((domainBarns k (domainOf k (barnPos b))).findIdx? (· = b)).getD 0

/-- The loft offset at an offset of a barn's loft partition (R104). -/
def loftAt (k b p : Nat) : Nat := (p / 4096 * (k * k / 2) + domainPlace k b) * 4096 + p % 4096

/-- The cell at a stack offset of a barn, below 16 GiB. -/
def State.stackCell (s : State) (b x : Nat) : StackCell :=
  let g := s.generalBytes
  let r := g + s.storeBytes
  let l := r + s.cfg.lp.toNat * 32 * mib
  if x < g then .general (generalAt b x)
  else if x < r then .shadow (x - g)
  else if x < l then .loft (x - r)
  else .record (x - l)

/-- The byte at a stack offset of a barn: what the barn holds, or held, and its ring rebuilds. -/
def State.stackByte (s : State) (b x : Nat) : Byte :=
  match s.stackCell b x with
  | .general pa => s.gmem.read pa
  | .shadow off => (s.barn b).store.read off
  | .loft p => s.loft.read (loftAt s.loftSide b p)
  | .record off => s.recordByte b off

/-! ### Parity (R103) -/

/-- The barns of a ring. -/
def ringBarns (i : Nat) : List Nat := (List.range 8).map fun j => 8 * i + j

/-- The exclusive or of a list of bytes. -/
def xorBytes (l : List Byte) : Byte := l.foldl (· ^^^ ·) 0

/-- The parity byte of a ring at a stack offset: the exclusive or over the ring's 8 barns. -/
def State.parityByte (s : State) (i x : Nat) : Byte := xorBytes ((ringBarns i).map fun b => s.stackByte b x)

/-- Where the parity line of a stack offset stands: its barn and its parity offset. -/
def parityPlace (i x : Nat) : Nat × Nat := (8 * i + x / 64 % 8, x / 64 / 8 * 64)

/-- A byte of a lost barn as reconstruction gives it: parity, and the same offset of the 7 other barns. -/
def State.rebuiltByte (s : State) (b x : Nat) : Byte :=
  s.parityByte (b / 8) x ^^^ xorBytes ((ringOthers b).map fun c => s.stackByte c x)

end Sys2Proof.Machine
end

