-- ==== Sys2Proof/Machine/Order.lean ====
section
/-!
DEFINITION. Major 0x63: ACQ, REL, FENCE (R318) and CLAIM (R100, R160, R319); major 0x66: the waits on copy tags and counters
(R326).
-/

namespace Sys2Proof.Machine

/-! ### Ordering -/

/-- ACQ: the loads before it have been performed when it acquires (R114, R127). -/
def coreAcq (s : State) : Eff :=
  let s := s.performLoads fun _ => true
  .ok (s.acquireAt s.here)
def execAcq (o : Slot) (s : State) := issueLogged (.acq o) coreAcq s

def execRel (o : Slot) (s : State) := issueLogged (.rel o) (boundary ownRelease .issue) s

/-- FENCE: every earlier access is performed before it, then unowned words are dropped (R119, R127, R318). -/
def coreFence (s : State) : Eff :=
  if s.me.storesGranted then
    let s := s.performLoads fun _ => true
    .ok (s.invalidate s.here)
  else holdNow
def execFence (o : Slot) (s : State) := issueLogged (.fence o) coreFence s

/-! ### CLAIM -/

/-- The physical address of the leaf entry that maps an address, with the entry (R155, R157). -/
def State.leafAt (s : State) (va : Word) : Option (Nat × Word) :=
  let a := va.toNat
  let e2 := s.readEntry (s.cfg.ptRoot.toNat * 2 ^ 19 + 8 * (a / 2 ^ 41 % 2 ^ 16))
  if !pteV e2 then none
  else
    let p1 := ptePa e2 + 8 * (a / 2 ^ 25 % 2 ^ 16)
    let e1 := s.readEntry p1
    if !pteV e1 then none
    else if pteLeaf e1 then some (p1, e1)
    else
      let p0 := ptePa e1 + 8 * (a / 2 ^ 16 % 2 ^ 9)
      let e0 := s.readEntry p0
      if pteV e0 then some (p0, e0) else none

/-- One page of CLAIM's check (R319): translated, not foreign, writable, and open to the mode. -/
def State.checkClaim (s : State) (va : Word) : Except LaneFault Unit :=
  match s.translate s.here s.regs.sup va 1 .write with
  | .error f => .error f
  | .ok p => if pteFor p.pte then .error { cause := .permission, addr := va, wr := true, mal := false } else .ok ()

/-- A trap of an instruction whose causes do not belong to lanes, from checks made item by item. -/
def wholeTrap {α : Type} (x : Except Stop α) : Except Stop α :=
  match x with
  | .error (.trap t) => .error (.trap { t with lanes := 0xFFFFFFFF })
  | r => r

def pageAt (ea : Word) (k : Nat) : Word := ea + BitVec.ofNat 64 (65536 * k)

def sendClaim (o : Slot) (s : State) : Except Stop (Option Op) := do
  let ea := eaScalar o s.regs
  let n := (scalarOf o s.regs o.b).toNat % 256 + 1
  let _ ← wholeTrap (gatherLanes (List.range n) fun k => s.checkClaim (pageAt ea k))
  need (ea.toNat % 65536 = 0) .misaligned ea
  pure (some (Op.make (.claim ea n) .n32 [] [] []))

/-- CLAIM waits at issue until every page is done; it is no blocking point, and replay performs it again (R319). -/
def coreClaim (o : Slot) (s : State) : Eff := errand none (sendClaim o) (fun _ s => .ok s) s
def execClaim (o : Slot) (s : State) := issueLogged (.claim o) (coreClaim o) s

/-- A leaf entry with another HOME field (R160): foreign entries keep theirs. -/
def pteRehome (pte : Word) (home : Nat) : Word :=
  if pteFor pte then pte else (pte &&& ~~~(0x1FF#64 <<< 52)) ||| (BitVec.ofNat 64 home <<< 52)

/-- Give a TLB's copy of an entry the new home. -/
def TlbEntry.rehome (t : TlbEntry) (vpn : Nat) (large : Bool) (home : Nat) : TlbEntry :=
  if t.vpn = vpn && t.large = large then { t with pte := pteRehome t.pte home } else t

/-- Re-home one page: its leaf entry as it stands, if it is a valid one of panel DRAM, every TLB copy, and the lines and
registrations of its granules (R100, R160). -/
def State.rehome (s : State) (barn : Nat) (va : Word) : State :=
  match s.walk va, s.leafAt va with
  | .ok t, some (pa, e) =>
    let e' := pteRehome e (1 + barn)
    if e' = e then s
    else
      let s := (List.range (if t.large then 512 else 1)).foldl (fun s i => s.moveHome (ptePa e / 0x10000 + i) (1 + barn)) s
      let s := s.writeCoherentN pa 8 e'.toNat
      let f := fun (tlb : List TlbEntry) => tlb.map fun x => x.rehome t.vpn t.large (1 + barn)
      { s with
        stalls := s.stalls.map fun p => (p.1, { p.2 with utlb := f p.2.utlb })
        stables := s.stables.map fun p => (p.1, { p.2 with tlb := f p.2.tlb }) }
  | _, _ => s

/-- CLAIM_REHOME_DONE: every page of the range is homed at the partner barn of the stable that runs the group (R100,
R319). -/
def execClaimRehomeDone (grp : Nat) (s : State) : Host.Outcome State Fault Refusal :=
  match (s.group grp).errand? with
  | some o =>
    match o.kind with
    | .claim va n =>
      let stall := s.hostOf (s.gang (gangOf grp)).stall
      let barn := partnerBarn (stableOf stall)
      let s' := (List.range n).foldl (fun s k => s.rehome barn (pageAt va k)) s
      happens (s'.modGroup grp fun g => g.setErrand fun o => { o with kind := .replied })
    | _ => idle s
  | none => idle s

/-! ### Tags and counters (R81, R326) -/

/-- The mask M of a tag instruction. -/
def tagMask (o : Slot) (s : State) : Word := scalarOf o s.regs o.b
/-- The number of the lowest set bit of a word. -/
def lowestSet (x : Word) : Nat := ((List.range 64).find? fun i => x.getLsbD i).getD 64
def State.clearTags (s : State) (m : Word) : State := s.modGang (gangOf s.cur) fun g => { g with tags := g.tags &&& ~~~m }

def coreTwaitall (o : Slot) (s : State) : Eff :=
  let m := tagMask o s
  if s.myGang.tags &&& m = m then
    let s := s.clearTags m
    .ok (s.acquireAt s.here)
  else holdNow
def execTwaitall (o : Slot) (s : State) := issueLogged (.twaitall o) (coreTwaitall o) s

/-- TWAITANY's result and the bit it clears. -/
def performTwaitany (o : Slot) (s : State) : Except Stop (State × List RegWrite) :=
  let m := tagMask o s
  let hit := s.myGang.tags &&& m
  if m = 0 then .ok (s, [.s o.dst.num 64])
  else if hit = 0 then holdNow
  else
    let n := lowestSet hit
    let s := s.clearTags (1#64 <<< n)
    .ok (s.acquireAt s.here, [.s o.dst.num (BitVec.ofNat 64 n)])

/-- In replay the bit that the entry names is cleared as it was (R87, R225). -/
def coreTwaitany (o : Slot) (s : State) : Eff :=
  let m := tagMask o s
  match s.me.fromLog 5 m with
  | some (some e) =>
    let n := match e.writes with | .s _ x :: _ => x.toNat | _ => 64
    let s := s.takeEntry e
    .ok (if m = 0 then s else (s.clearTags (1#64 <<< n)).acquireAt s.here)
  | _ => logged 5 m (performTwaitany o) s
def execTwaitany (o : Slot) (s : State) := issueLogged (.twaitany o) (coreTwaitany o) s

def coreTffs (o : Slot) (s : State) : Eff :=
  .ok (s.setRegs (s.regs.setDst o.dst (BitVec.ofNat 64 (lowestSet (s.myGang.tags &&& tagMask o s)))))
def execTffs (o : Slot) (s : State) := issueLogged (.tffs o) (coreTffs o) s

/-- WAITC's limits (R326). -/
def coreWaitc (o : Slot) (s : State) : Eff :=
  let g := s.me
  let lim := fun i => (o.imm.extractLsb' (8 * i) 8).toNat
  if g.ld ≤ lim 0 && g.st ≤ lim 1 && g.cp ≤ lim 2 && g.tl ≤ lim 3 then .ok (s.acquireAt s.here) else holdNow
def execWaitc (o : Slot) (s : State) := issueLogged (.waitc o) (coreWaitc o) s

end Sys2Proof.Machine
end

