-- ==== Sys2Proof/Machine/Tasks.lean ====
section
/-!
DEFINITION. Major 0xA2: TASK, FWAIT and FSET (R383 to R387), LOCK and UNLOCK (R388, R389), ENQ, DEQ and QWAIT (R147 to
R150, R390, R391).
-/

namespace Sys2Proof.Machine

/-- The location of a structure that an instruction names and that is read or changed at its home slice. -/
def State.homeAcc (s : State) (sup : Bool) (va : Word) (n align : Nat) (w : Want) : Except LaneFault Nat :=
  match s.translate s.here sup va n w with
  | .error f => .error f
  | .ok p =>
    if va.toNat % align ≠ 0 then .error (LaneFault.plain .misaligned va)
    else if s.readPoison s.here p.loc n true then .error (LaneFault.plain .poison va)
    else .ok p.loc

/-! ### TASK (R383) -/

/-- A task request, as the number of its 256 bits, follows R383. -/
def requestOk (x : Nat) : Bool :=
  fld x 191 128 % 64 = 0 && 8 ≤ fld x 199 192 && fld x 199 192 ≤ 64 && fld x 199 192 % 8 = 0 && fld x 207 200 = 0 &&
  fld x 226 208 % 256 = 0 && fld x 226 208 ≤ 262144 && fld x 255 227 = 0

/-- The request at an own-scratchpad offset, checked. -/
def State.requestAt (s : State) (ea : Word) : Except LaneFault Nat := do
  let a ← s.ownAcc 0 ea 32 .read
  let x := s.scr s.here a.loc 32
  if requestOk x then pure x else .error (LaneFault.plain .poison ea)

/-- The sixteen words of a new record (R174, R383). -/
def recordWords (x : Nat) (launch : BitVec 32) : List Word :=
  let w := fun hi lo => BitVec.ofNat 64 (fld x hi lo)
  [w 63 0, w 127 64, 0, BitVec.ofNat 64 (fld x 199 192 * 2 ^ 16 + launch.toNat * 2 ^ 32), w 226 208, w 191 128,
   BitVec.allOnes 64, 0, 0, 0, 0, 0, 0, 0, 0, 0]

/-- What TASK's two checks give. -/
inductive TaskPart where
  | request (x : Nat)
  | record (a : Acc)
  deriving DecidableEq, Repr

/-- The request and the record's place: the lowest cause of both is reported (R213). -/
def taskParts (o : Slot) (s : State) : Except Stop (List (Nat × TaskPart)) :=
  wholeTrap (gatherLanes [0, 1] fun i =>
    if i = 0 then (s.requestAt (eaScalar o s.regs)).map TaskPart.request
    else (s.globalAcc 0 (s.regs.getS o.b.num) 128 .write).map TaskPart.record)

/-- The accesses that write a record: one of 8 bytes for each word. -/
def recordAccs (a : Acc) (ws : List Word) : List Acc :=
  ((List.range 16).zip ws).map fun p =>
    { a with loc := a.loc + 8 * p.1, va := a.va + BitVec.ofNat 64 (8 * p.1), bytes := 8, value := p.2 }

def coreTask (run : Bool) (o : Slot) (s : State) : Eff := do
  match ← taskParts o s with
  | [(_, .request x), (_, .record a)] =>
    let s' ← storeGlobal (recordAccs a (recordWords x s.regs.launchId)) s
    pure (s'.modMe fun g => { g with tasks := g.tasks ++ [(a.va, run)] })
  | _ => pure s
def execTask (o : Slot) (s : State) := issueLogged (.task o) (coreTask false o) s
def execTaskRun (o : Slot) (s : State) := issueLogged (.taskRun o) (coreTask true o) s

/-! ### Waits (R47, R48, R385) -/

/-- The record that an instruction reaches, if one stands at the address, is well formed (R174). -/
def State.reachable (s : State) (t : Word) : Bool :=
  match s.structLoc s.here t 128 with
  | some rec' => s.recordOk rec'
  | none => true

/-- The record of the task that the issuing group runs, if any, is well formed (R174). -/
def State.ownReachable (s : State) : Bool := s.regs.taskId = 0 || s.reachable s.regs.taskId

/-- Await a task: adopt it, or publish the wait and wait; a wait on the own task closes a cycle of one link. `parked`
limits adoption to parked tasks. A wait that is published in the group's own record finds it well formed (R174, R176). -/
def awaitTask (t : Word) (parked : Bool) (w : Wake) (s : State) : Eff :=
  if t ≠ 0 && t = s.regs.taskId then .error (.trapKeep (Trap.whole .deadlock t) s.endWait)
  else
    let waits : Eff := if s.ownReachable then .error (.holdKeep (some w) (s.publishWait t)) else trapNow .poison s.regs.taskId
    if t = 0 then waits
    else
      match s.structLoc s.here t 128 with
      | none => waits
      | some rec =>
        if !s.recordOk rec then trapNow .poison t
        else if s.mayAdopt t rec && (!parked || recState (s.wordAt rec 3) = 2) then adopt t rec s.endWait
        else waits

/-- A waiting instruction: in replay it takes its entry; a claim it has made comes first; else it is tried (R225,
R386). -/
def awaiting (kind : Nat) (key : Word) (try' : State → Eff) (s : State) : Eff :=
  match s.me.fromLog kind key with
  | some (some e) => .ok (s.takeEntry e)
  | some none => diverge s
  | none =>
    match s.me.claim with
    | some c => adoptionEntry c.1 s
    | none => try' s

/-- A satisfied wait: its entry in the log, its results, the end of its wait, and its acquire (R114). -/
def satisfied (kind : Nat) (key : Word) (ws : List RegWrite) (s : State) : Eff :=
  match s.record (Effect.of kind s.me key ws) with
  | .error e => .error e
  | .ok s' =>
    let s' := s'.endWait
    .ok ((s'.setRegs (s'.regs.writes ws)).acquireAt s'.here)

/-- A value and its status word (R375). -/
def statusWrites (d : Nat) (value status : Word) : List RegWrite := [.s d value, .s (d + 1) status]
/-- The status word of a task that ended by a fault (R375). -/
def faultStatus (w3 : Word) : Word := 1#64 ||| ((w3.extractLsb' 8 8).setWidth 64 <<< 8)

/-- FWAIT on the record at a location (R385). -/
def tryFwait (o : Slot) (sa : Word) (s : State) : Eff := do
  let rec' ← wholeCheck (s.homeAcc s.regs.sup sa 128 128 .read)
  if s.me.pendingAt rec' 128 then holdNow else
  need (s.recordOk rec') .poison sa
  let w3 := s.wordAt rec' 3
  if recState w3 = 3 then satisfied 5 sa (statusWrites o.dst.num (s.wordAt rec' 2) 0) s
  else if recState w3 = 4 then satisfied 5 sa (statusWrites o.dst.num 0 (faultStatus w3)) s
  else awaitTask sa false (.future sa) s

def coreFwait (o : Slot) (s : State) : Eff :=
  let sa := s.regs.getS o.a.num
  awaiting 5 sa (tryFwait o sa) s
def execFwait (o : Slot) (s : State) := issueLogged (.fwait o) (coreFwait o) s

/-! ### FSET (R387) -/

def fsetStep (o : Slot) (s : State) : Except Stop (State × List RegWrite) := do
  let t := s.regs.taskId
  need (t ≠ 0) .illegalOp
  let rec' ← wholeCheck (s.homeAcc true t 128 1 .write)
  need (s.recordOk rec') .poison t
  need (recState (s.wordAt rec' 3) ≠ 3) .illegalOp
  let s := s.setWordAt rec' 2 (scalarOf o s.regs o.b)
  pure (s.setRecord rec' 3 0, [])
def execFset (o : Slot) (s : State) := issueLogged (.fset o) (boundary (outside (fsetStep o)) .issue) s

/-! ### Locks (R388, R389) -/

/-- STATE of a lock's holder: done or faulted. -/
def State.holderEnded (s : State) (h : Word) : Bool :=
  match s.structLoc s.here h 128 with
  | some rec' => recState (s.wordAt rec' 3) = 3 || recState (s.wordAt rec' 3) = 4
  | none => false

/-- Take a lock: its word names the group, and whoever waited for an ended holder's word finds it changed (R388). -/
def takeLock (a : Acc) (s : State) : Eff :=
  let id := s.regs.lockId
  let s' := (s.setWordAt a.loc 0 id).wakeLock a.loc
  satisfied 1 a.va [] (s'.modMe fun g => { g with locks := g.locks ++ [(a.va, id)] })

def tryLock (ea : Word) (s : State) : Eff := do
  let a ← wholeCheck (s.atomicAcc 0 ea 8)
  let w := s.wordAt a.loc 0
  let h := w &&& ~~~63#64
  if s.me.pendingAt a.loc 8 then holdNow
  else if w = 0 then takeLock a s
  else if w.extractLsb' 1 5 ≠ 0 then trapNow .poison ea
  else if h ≠ 0 && !s.reachable h then trapNow .poison h
  else if h ≠ 0 && s.holderEnded h then takeLock a s
  else awaitTask h true (.lock ea w false) s

def coreLock (o : Slot) (s : State) : Eff :=
  let ea := eaScalar o s.regs
  awaiting 1 ea (tryLock ea) s
def execLock (o : Slot) (s : State) := issueLogged (.lock o) (coreLock o) s

def unlockStep (o : Slot) (s : State) : Except Stop (State × List RegWrite) := do
  let ea := eaScalar o s.regs
  let a ← wholeCheck (s.atomicAcc 0 ea 8)
  need (s.wordAt a.loc 0 = s.regs.lockId) .poison ea
  let s := (s.setWordAt a.loc 0 0).wakeLock a.loc
  pure (s.modMe fun g => { g with locks := g.locks.filter fun p => p.1 != ea }, [])
def execUnlock (o : Slot) (s : State) := issueLogged (.unlock o) (boundary (outside (unlockStep o)) .issue) s

/-! ### Task queues (R147 to R149) -/

/-- A queue header's place and fields. -/
structure QueueAt where
  loc : Nat
  cap : Nat
  head : Word
  tail : Word
  rsv : Word
  deriving DecidableEq, Repr

/-- The header an instruction names, checked (R148). -/
def queueAt (ea : Word) (s : State) : Except Stop QueueAt := do
  let q ← wholeCheck (s.homeAcc s.regs.sup ea 64 64 .write)
  if s.me.pendingAt q 64 then holdNow else
  need (s.queueOk q) .poison ea
  pure { loc := q, cap := ((s.wordAt q 0).extractLsb' 0 32).toNat, head := s.wordAt q 1, tail := s.wordAt q 2,
         rsv := s.wordAt q 3 }

/-- The place of entry i of a queue. -/
def entryAt (ea : Word) (i : Nat) (s : State) : Except Stop Nat :=
  wholeCheck (s.homeAcc s.regs.sup (queueEntry ea i) 16 1 .write)

/-- STATE of an entry's word 1, its zero field, and its PRODUCER as a record address. -/
def entryState (w1 : Word) : Nat := (w1.extractLsb' 0 2).toNat
def entryProducer (w1 : Word) : Word := w1 &&& ~~~63#64
/-- An entry that a step reads follows R147, else the step raises POISON (R148). -/
def readsEntry (ea : Word) (e : Nat) (s : State) : Except Stop Unit := need (s.entryOk e) .poison ea

/-- The record of a faulted entry's producer, whose cause the step reads, is well formed (R174). -/
def readsProducer (e : Nat) (s : State) : Except Stop Unit :=
  let w1 := s.wordAt e 1
  need (entryState w1 ≠ 3 || s.reachable (entryProducer w1)) .poison (entryProducer w1)

/-- Write an entry: its value, its STATE, and no producer. -/
def State.setEntry (s : State) (e : Nat) (value : Word) (state : Nat) : State :=
  (s.setWordAt e 0 value).setWordAt e 1 (BitVec.ofNat 64 state)

/-- The running task's record, when it promises an entry of the queue (R150). -/
def State.promiseIn (s : State) (ea : Word) : Option (Nat × Word) :=
  let t := s.regs.taskId
  if t = 0 then none
  else
    match s.structLoc s.here t 128 with
    | none => none
    | some rec' =>
      if s.wordAt rec' 5 = ea && s.wordAt rec' 6 ≠ BitVec.allOnes 64 then some (rec', s.wordAt rec' 6) else none

/-- The ENQ step (R149). It reaches the running task's record, which tells whether the entry is promised (R150, R174). -/
def enqStep (o : Slot) (s : State) : Except Stop (State × List RegWrite) := do
  let ea := eaScalar o s.regs
  let value := scalarOf o s.regs o.b
  let q ← queueAt ea s
  need s.ownReachable .poison s.regs.taskId
  let r := min s.regs.depth.toNat 3
  match s.promiseIn ea with
  | some (rec', pos) =>
    let e ← entryAt ea (pos.toNat % q.cap) s
    readsEntry ea e s
    let w1 := s.wordAt e 1
    let s := (s.setWordAt e 0 value).setWordAt e 1 ((w1 &&& ~~~3#64) ||| 2#64)
    pure (s.setWordAt rec' 6 (BitVec.allOnes 64), [])
  | none =>
    if (q.tail - q.head).toNat < q.cap then
      let e ← entryAt ea (q.tail.toNat % q.cap) s
      pure ((s.setEntry e value 2).setWordAt q.loc 2 (q.tail + 1), [])
    else if !q.rsv.getLsbD r then
      let e ← entryAt ea (q.cap + r) s
      pure ((s.setEntry e value 2).setWordAt q.loc 3 (q.rsv ||| (1#64 <<< r)), [])
    else .error (.hold (some (.room ea r)))
def execEnq (o : Slot) (s : State) := issueLogged (.enq o) (boundary (outside (enqStep o)) .issue) s

/-- What a DEQ or QWAIT step finds: an entry that it takes, or the producer it would wait for, 0 for none, on the slot at HEAD. -/
inductive Taking where
  | took (value status : Word)
  | waits (producer head : Word)
  deriving DecidableEq, Repr

/-- The status of a taken entry: the cause of a faulted one is that of its producer's record (log 34). -/
def State.takenStatus (s : State) (w1 : Word) : Word :=
  if entryState w1 = 3 then
    match s.structLoc s.here (entryProducer w1) 128 with
    | some rec' => faultStatus (s.wordAt rec' 3)
    | none => 1
  else 0

/-- Take the entry at a place: it becomes empty (R149). -/
def State.takeQueued (s : State) (e : Nat) : State × Taking :=
  let w1 := s.wordAt e 1
  (s.setEntry e 0 0, .took (if entryState w1 = 3 then 0 else s.wordAt e 0) (s.takenStatus w1))

/-- The DEQ and QWAIT step (R149). -/
def takeStep (ea : Word) (s : State) : Except Stop (State × Taking) := do
  let q ← queueAt ea s
  if s.me.pendingAt q.loc (64 + 16 * (q.cap + 4)) then holdNow
  else if q.rsv ≠ 0 then
    let d := lowestSet q.rsv
    let e ← entryAt ea (q.cap + d) s
    readsEntry ea e s
    readsProducer e s
    let p := s.takeQueued e
    pure (p.1.setWordAt q.loc 3 (q.rsv &&& ~~~(1#64 <<< d)), p.2)
  else if q.tail = q.head then pure (s, .waits 0 q.head)
  else
    let e ← entryAt ea (q.head.toNat % q.cap) s
    readsEntry ea e s
    let w1 := s.wordAt e 1
    if 2 ≤ entryState w1 then
      readsProducer e s
      let p := s.takeQueued e
      pure (p.1.setWordAt q.loc 1 (q.head + 1), p.2)
    else pure (s, .waits (if entryState w1 = 1 then entryProducer w1 else 0) q.head)

def performDeq (o : Slot) (s : State) : Except Stop (State × List RegWrite) := do
  let (s', t) ← takeStep (eaScalar o s.regs) s
  match t with
  | .took v st => pure (s'.acquireAt s'.here, statusWrites o.dst.num v st)
  | .waits .. => pure (s', statusWrites o.dst.num 0 2)
def coreDeq (o : Slot) (s : State) : Eff := logged 5 (eaScalar o s.regs) (performDeq o) s
def execDeq (o : Slot) (s : State) := issueLogged (.deq o) (coreDeq o) s

def tryQwait (o : Slot) (ea : Word) (s : State) : Eff := do
  let (s', t) ← takeStep ea s
  match t with
  | .took v st => satisfied 5 ea (statusWrites o.dst.num v st) s'
  | .waits p head => awaitTask p false (.items ea head) s'
def coreQwait (o : Slot) (s : State) : Eff :=
  let ea := eaScalar o s.regs
  awaiting 5 ea (tryQwait o ea) s
def execQwait (o : Slot) (s : State) := issueLogged (.qwait o) (coreQwait o) s

end Sys2Proof.Machine
end

