-- ==== Sys2Proof/Machine/Claims.lean ====
section
/-!
DEFINITION. What the gangs of a stall hold and who claims its slots and registers (R28, R200, R204, R223, R227, R384, log 63): the room
that a group, a gang or a hosted stall's gangs find beside those that come before them.
-/

namespace Sys2Proof.Machine

/-! ### Gangs and groups of a stall -/

/-- The stall that runs a gang. -/
def State.runsOn (s : State) (gang : Nat) : Nat := s.hostOf (s.gang gang).stall

/-- The gangs that hold an allocation on a stall; one imaged out holds none (R180). -/
def State.gangsOn (s : State) (stall : Nat) : KMap Gang :=
  s.gangs.filter fun p => s.hostOf p.2.stall = stall && p.2.phase != .imaged

/-- The groups of a standing on a stall. -/
def State.standing (s : State) (stall : Nat) (x : Standing) : KMap Group :=
  s.groups.filter fun p => p.2.standing = x && !isCallable p.1 && s.runsOn (gangOf p.1) = stall

def regsOf (gs : KMap Group) : Nat := (gs.map fun p => p.2.vbudget).sum

/-- The role that a stage names (R27). -/
def State.role? (s : State) (gang stage : Nat) : Option Role := (s.launch (lidOf gang)).roles[stage]?
def State.roleRegs (s : State) (gang stage : Nat) : Nat := ((s.role? gang stage).map Role.vbudget).getD 0

/-- A group number with no group, or whose group has exited and has no engine operation left (log 17). -/
def State.numberFree (s : State) (gang n : Nat) : Bool :=
  match s.group? (groupKey gang n) with
  | none => true
  | some g => g.standing = .exited && g.cp = 0 && g.tl = 0 && g.ops.isEmpty
def State.freeNumber (s : State) (gang : Nat) : Option Nat := (List.range 16).find? fun n => s.numberFree gang n

/-- The groups of a gang that a restart brings back. -/
def State.restartGroups (s : State) (gang : Nat) : List Nat :=
  (s.groupsOf gang).filter fun k => (s.group k).standing != .exited

/-! ### Claims on slots and vector registers (R204, R223) -/

/-- Slots and registers in use. -/
def State.usedSlots (s : State) (stall : Nat) : Nat := (s.standing stall .slot).length
def State.usedRegs (s : State) (stall : Nat) : Nat := regsOf (s.standing stall .slot)

/-- The groups that a gang waiting to be restored on the stall has still to find a slot for: its claims come first (R223). -/
def State.restoringOn (s : State) (stall : Nat) : KMap Group :=
  s.groups.filter fun p => p.2.standing != .exited && p.2.standing != .slot && !isCallable p.1 &&
    (s.gang (gangOf p.1)).phase = .restoring && s.runsOn (gangOf p.1) = stall

/-- An adoption entry has claimed the task that a group is parked in: the group's own wake is void (R210). -/
def State.taskClaimed (s : State) (grp : Nat) : Bool :=
  let t := (s.group grp).r.taskId
  t ≠ 0 && s.groups.any fun p => p.1 ≠ grp && p.2.claim.any fun c => c.1 = t

/-- A group waits for a slot: its wake condition has held and its wake is not void, and its gang is resident and not held by a
request (R204, R209, R210). -/
def State.wakeWaits (s : State) (grp : Nat) : Bool :=
  (s.group grp).standing = .woken && (s.gang (gangOf grp)).live && !s.preempted (lidOf (gangOf grp)) && !s.taskClaimed grp
def State.wokenOn (s : State) (stall : Nat) : KMap Group := (s.standing stall .woken).filter fun p => s.wakeWaits p.1
def State.wokenSlots (s : State) (stall : Nat) : Nat := (s.wokenOn stall).length
def State.wokenRegs (s : State) (stall : Nat) : Nat := regsOf (s.wokenOn stall)

/-- A bin that waits to become a group: it holds items and is ready, as by its gang's last exit (R39, R145). -/
def State.binDue (s : State) (b : Bin) : Bool := !b.items.isEmpty && (b.ready || s.noGroup b.gang)
def State.dueBins (s : State) (stall : Nat) : KMap Bin := (s.stall stall).bins.filter fun p => s.binDue p.2
def State.binSlots (s : State) (stall : Nat) : Nat := (s.dueBins stall).length
def State.binRegs (s : State) (stall : Nat) : Nat :=
  ((s.dueBins stall).map fun p => s.roleRegs p.2.gang p.2.stage).sum

/-- STATE of a record at an address: none where it cannot be read. -/
def State.taskState (s : State) (stall : Nat) (task : Word) : Option Nat :=
  (s.structLoc stall task 128).map fun rec' => recState (s.wordAt rec' 3)

/-- Requests whose tasks have left the unstarted state lapse (R384). -/
def State.liveRequests (s : State) (gang : Nat) : List RunReq :=
  (s.gang gang).runReqs.filter fun q => s.taskState (s.runsOn gang) q.task = some 0

/-- The conditions of a request beside its slot and registers hold: a live gang, a group number, its bytes (R384). -/
def State.requestReady (s : State) (gang : Nat) (q : RunReq) : Bool :=
  (s.gang gang).live && (s.freeNumber gang).isSome && s.needFits gang q.task q.need

/-- The requests of a stall's gangs that want a slot: in each gang no more than its free numbers. -/
def State.requestsOn (s : State) (stall : Nat) : List (Nat × RunReq) :=
  (s.gangsOn stall).flatMap fun p =>
    if p.2.runReqs.isEmpty then []
    else
      let free := ((List.range 16).filter fun n => s.numberFree p.1 n).length
      (((s.liveRequests p.1).filter fun q => s.requestReady p.1 q).take free).map fun q => (p.1, q)
def State.requestRegs (s : State) (stall : Nat) : Nat :=
  ((s.requestsOn stall).map fun x => s.roleRegs x.1 x.2.stage).sum

/-- The claimants on a stall want more than is free: a group at a blocking point parks (R207). -/
def State.slotClaimed (s : State) (stall : Nat) : Bool :=
  let slots := (s.restoringOn stall).length + s.wokenSlots stall + s.binSlots stall + (s.requestsOn stall).length
  let regs := regsOf (s.restoringOn stall) + s.wokenRegs stall + s.binRegs stall + s.requestRegs stall
  slots ≠ 0 && (16 < s.usedSlots stall + slots || 512 < s.usedRegs stall + regs)

/-! ### Stalls that can take gangs -/

/-- A base at which size bytes of a stall's scratchpad are free. -/
def State.baseFree (s : State) (stall base size : Nat) : Bool :=
  base + size ≤ 262144 && (s.gangsOn stall).all fun p => !overlaps base size p.2.scrbase p.2.scrsize

/-- The stall can take gangs: it is present, not lost, on a live stable whose time is synchronised, and the record area of
its partner barn has a free block (R24, R177, R192). -/
def State.stallUp (s : State) (stall : Nat) : Bool :=
  let st := s.stable (stableOf stall)
  !(s.spare stall).absent && !(s.stall stall).lost && !st.lost && st.synced &&
  s.freeBlocks (partnerBarn (stableOf stall)) ≠ 0

/-- A stall that stands behind its logical number and works. -/
def State.stallPresent (s : State) (stall : Nat) : Bool :=
  stall < 103680 && !(s.spare stall).absent && !(s.stall stall).lost && !(s.stable (stableOf stall)).lost

/-- The lowest of a stable's last n logical stalls on which a condition holds. -/
def firstStall (f : Nat → Bool) (stable : Nat) : Nat → Option Nat
  | 0 => none
  | n + 1 => let t := 360 * stable + (359 - n); if f t then some t else firstStall f stable n

/-- The first stall in the order of stables of R201, over n stables from one of them. -/
def offerStables (f : Nat → Bool) (stable : Nat) : Nat → Option Nat
  | 0 => none
  | n + 1 =>
    match firstStall f (stable % 288) 360 with
    | some t => some t
    | none => offerStables f (stable + 1) n

/-! ### Hosting (R227) -/

/-- A gang imaged out that waits for its stall: a group of it has been woken (R204). -/
def State.replaceWaits (s : State) (gang : Nat) : Bool :=
  (s.gang gang).phase = .imaged && !s.preempted (lidOf gang) &&
  (s.groupsOf gang).any fun k => (s.group k).standing = .woken && !s.taskClaimed k

/-- The logical bank of a plane-array command. -/
def CmdKind.logical (k : CmdKind) : Nat :=
  match k with
  | .mloop o .. => o.bank
  | .mdrain o .. => o.bank
  | .mclr o _ => o.bank
  | _ => 0

/-- The banks that a gang is rebound to (R332): those it held, and those that its images and the commands run again name. -/
def State.bankNeed (s : State) (gang : Nat) : Nat :=
  let g := s.gang gang
  let logged := (s.groupsOf gang).flatMap fun k => (s.group k).effects.filterMap fun e => e.cmd
  let cmds := (logged ++ g.held.map Prod.fst).filter fun c => c.kind.plane && !g.covered c.id
  max g.banksHeld (g.bankImages.map Prod.fst ++ cmds.map fun c => c.kind.logical).eraseDups.length
/-- The unbound banks of a stall. -/
def State.freeBanks (s : State) (stall : Nat) : Nat := ((s.stall stall).banks.filter fun b => b.bound.isNone).length

/-- The gangs of a logical stall that have no stall: those that have lost it together, or else one that is imaged out and waits
for it (R204, R227). -/
def State.homeless (s : State) (stall : Nat) : KMap Gang :=
  let mine := s.gangs.filter fun p => p.2.stall = stall
  match mine.filter fun p => p.2.phase = .lost with
  | [] => (mine.filter fun p => s.replaceWaits p.1).take 1
  | gs => gs

/-- A stall can host some gangs together: slots, registers, tables, banks, and the very bytes of their allocations. -/
def State.canHost (s : State) (gs : KMap Gang) (host : Nat) : Bool :=
  let ks := (kkeys gs).flatMap s.restartGroups
  s.stallUp host && s.usedSlots host + (s.restoringOn host).length + ks.length ≤ 16 &&
  s.usedRegs host + regsOf (s.restoringOn host) + (ks.map fun k => (s.group k).vbudget).sum ≤ 512 &&
  (s.gangsOn host).length + gs.length ≤ 16 && ((kkeys gs).map s.bankNeed).sum ≤ s.freeBanks host &&
  gs.all fun p => s.baseFree host p.2.scrbase p.2.scrsize

/-- The stall that takes an absent stall's homeless gangs: the first that qualifies (R201, R227). -/
def State.hostFor (s : State) (stall : Nat) : Option Nat :=
  let gs := s.homeless stall
  if gs.isEmpty || (s.spare stall).hosted || s.stallPresent stall then none
  else offerStables (s.canHost gs) (stableOf stall + 1) 288

/-- Homeless gangs go to this stall before woken groups and new placements (R227). -/
def State.hostClaims (s : State) (stall : Nat) : Bool :=
  (((s.gangs.filter fun p => p.2.phase = .lost || s.replaceWaits p.1).map fun p => p.2.stall).eraseDups).any
    fun t => s.hostFor t = some stall

/-! ### Room -/

/-- A stall has room for a group of n vector registers beside what is reserved ahead of it. -/
def State.roomFor (s : State) (stall n aheadSlots aheadRegs : Nat) : Bool :=
  s.usedSlots stall + (s.restoringOn stall).length + aheadSlots < 16 &&
  s.usedRegs stall + regsOf (s.restoringOn stall) + aheadRegs + n ≤ 512 && !s.hostClaims stall

/-- The slots, registers and tables of R200 for a gang, beside those of the claimants before it (R204, R223, R227). -/
def State.roomForGang (s : State) (stall groups regs : Nat) : Bool :=
  s.usedSlots stall + (s.restoringOn stall).length + s.wokenSlots stall + s.binSlots stall +
    (s.requestsOn stall).length + groups ≤ 16 &&
  s.usedRegs stall + regsOf (s.restoringOn stall) + s.wokenRegs stall + s.binRegs stall + s.requestRegs stall +
    regs ≤ 512 &&
  (s.gangsOn stall).length < 16 && !s.hostClaims stall

/-- A gang imaged out waits for this stall, ahead of new placements of its priority level and of those below it (R204). -/
def State.replaceAhead (s : State) (stall level : Nat) : Bool :=
  s.gangs.any fun p => s.hostOf p.2.stall = stall && s.replaceWaits p.1 &&
    (s.queue (s.launch (lidOf p.1)).queue).prio.toNat ≤ level

end Sys2Proof.Machine
end

