-- ==== Sys2Proof/Machine/Slots.lean ====
section
/-!
DEFINITION. The start of a group (R33, R202), groups made from packing bins and
from TASK.RUN (R39, R142, R145, R384), issue age (R205), parking and waking (R180, R204, R207, R210), and GBAR's instance
(R377).
-/

namespace Sys2Proof.Machine

/-! ### The start of a group -/

/-- The lowest slot that no other group holds (log 16). -/
def State.freeSlot (s : State) (stall grp : Nat) : Nat :=
  let used := ((s.standing stall .slot).filter fun p => p.1 != grp).map fun p => p.2.slot
  ((List.range 16).find? fun i => !used.contains i).getD 0

/-- The start state of a group of a launch (R33). -/
def State.startRegs (s : State) (lid : BitVec 32) (argp pc : Word) (exm : BitVec 32) : Regs :=
  { Regs.zero.setS 1 argp with pc := pc, exm := exm, launchId := lid, tvec := s.fwTvec }

/-- The greatest number of slots a gang has held (R197). -/
def State.noteSlots (s : State) (gang : Nat) : State :=
  let n := ((s.groupsOf gang).filter fun k => (s.group k).standing = .slot).length
  s.modGang gang fun g => { g with slotsMax := max g.slotsMax n }

/-- A group takes a slot with the youngest age (R205). -/
def State.takeSlot (s : State) (grp : Nat) : State :=
  let gang := gangOf grp
  let stall := s.runsOn gang
  let slot := s.freeSlot stall grp
  let s := s.modGroup grp fun g => { g with standing := .slot, slot := slot, streak := 0, blocked := none }
  let s := s.modStall stall fun st =>
    { st with ages := (st.ages.filter (· != grp)) ++ [grp], wakes := st.wakes.filter (· != grp) }
  s.noteSlots gang

/-- A group number changes hands: what earlier entries of the intake log waited for of its former group is past (R181). -/
def Intake.forget (n : Nat) (e : Intake) : Intake := { e with stamp := e.stamp.set n 0 }

/-- A number given out again: the carry ranges that its exited group saved last stay among the gang's images, beside those of
earlier groups of other ranges (R44, R179). -/
def State.keepCarry (s : State) (gang n : Nat) : State :=
  match (s.group (groupKey gang n)).lastSection with
  | none => s
  | some x =>
    let shape := fun (rs : List (Nat × List Byte)) => rs.map fun r => (r.1, r.2.length)
    if x.ranges.isEmpty then s
    else
      s.modGang gang fun g =>
        { g with carries := (x.time.toNat, n, x.ranges) ::
            g.carries.filter fun c => c.2.1 != n || shape c.2.2 != shape x.ranges }

/-- A new group of a gang, with a stage's role and start registers; its first issue is a transfer (R31, R251). -/
def State.startGroup (s : State) (gang n stage : Nat) (role : Role) (r : Regs) : State :=
  let k := groupKey gang n
  let g : Group := { Group.fresh with
    r := r, start := r, stage := stage, vbudget := role.vbudget, carryS := role.carryS, carryV := role.carryV,
    cranges := role.cranges, transferFrom := some 0, gbars := (s.gang gang).gbarDone, locks := (s.group k).locks }
  let s := (s.keepCarry gang n).modGang gang fun x =>
    { x with intake := x.intake.map (Intake.forget n), toApply := x.toApply.map (Intake.forget n) }
  (s.setGroup k g).takeSlot k

/-! ### Items and bins (R39, R142, R146) -/

/-- A bin that can take an item of a key. -/
def Bin.accepts (b : Bin) (i : Item) : Bool :=
  !b.items.isEmpty && !b.ready && b.gang = i.gang && b.stage = i.stage && b.pc = i.pc && b.items.length < 32

/-- The bin that the head item goes to: one of its key, else the lowest free one. -/
def Stall.binFor (st : Stall) (i : Item) : Option Nat :=
  let bin := fun n => kget Bin.empty st.bins n
  match (List.range 8).find? fun n => (bin n).accepts i with
  | some n => some n
  | none => (List.range 8).find? fun n => (bin n).items.isEmpty

/-- Put an item in a bin: 32 items make it ready. -/
def Bin.add (b : Bin) (i : Item) : Bin :=
  let items := b.items ++ [i]
  { gang := i.gang, stage := i.stage, pc := i.pc, items := items, ready := items.length = 32 }

/-- PACKING_MOVE: the head of the item queue moves into a bin (R39); with no group of its gang running the bin is ready. -/
def execPackingMove (stall : Nat) (s : State) : Host.Outcome State Fault Refusal :=
  let st := s.stall stall
  match st.itemq with
  | [] => idle s
  | i :: rest =>
    match st.binFor i with
    | none => idle s
    | some n =>
      happens ((s.setStall stall
        { st with itemq := rest, bins := kset Bin.empty st.bins n ((kget Bin.empty st.bins n).add i) }).readyBins i.gang)

/-- The group that stands for a gang ended as a whole: its lowest that has not exited. -/
def State.firstGroup (s : State) (gang : Nat) : Nat := (s.restartGroups gang).headD (groupKey gang 0)

/-- SPILL_MOVE: the oldest item of the spill areas behind a stall moves to the item queue's tail (R142, R227); one that cannot
be read ends its gang with POISON (R231). -/
def execSpillMove (stall : Nat) (s : State) : Host.Outcome State Fault Refusal :=
  let st := s.stall stall
  match oldestItem (s.spilled stall) with
  | none => idle s
  | some i =>
    if s.recordsDead i.gang then happens (s.endGang i.gang Cause.poison.code 0 (s.firstGroup i.gang))
    else
      let s' := s.modStall (s.gang i.gang).stall fun st => { st with spill := st.spill.erase i }
      when (!st.lost && st.itemq.length < 256) s (s'.modStall stall fun st => { st with itemq := st.itemq ++ [i] })

/-- BIN_TIMEOUT: 64 cycles have passed since an item entered the bin (R39). -/
def execBinTimeout (stall bin : Nat) (s : State) : Host.Outcome State Fault Refusal :=
  let st := s.stall stall
  let b := kget Bin.empty st.bins bin
  when (!b.items.isEmpty && !b.ready) s (s.setStall stall { st with bins := kset Bin.empty st.bins bin { b with ready := true } })

/-- The registers of a group made from a bin: item i supplies lane i (R39). -/
def State.binRegsOf (s : State) (b : Bin) : Regs :=
  let l := s.launch (lidOf b.gang)
  let lanes := (List.range b.items.length).zip b.items
  let r := s.startRegs (lidOf b.gang) l.argp b.pc (maskOf (lanes.map Prod.fst))
  lanes.foldl (fun r p => r.setVV 0 p.1 p.2.payload) r

/-- A due bin can become a group now. -/
def State.binStarts (s : State) (stall : Nat) (b : Bin) : Bool :=
  s.binDue b && (s.gang b.gang).live && (s.freeNumber b.gang).isSome &&
  s.roomFor stall (s.roleRegs b.gang b.stage) (s.wokenSlots stall) (s.wokenRegs stall)

/-- Close a bin into a group (R39, R425); the start is an acquire of the items' credits (R114). -/
def State.closeBin (s : State) (stall n : Nat) (b : Bin) : State :=
  match s.freeNumber b.gang, s.role? b.gang b.stage with
  | some k, some role =>
    let r := s.binRegsOf b
    let s := s.modStall stall fun st => { st with bins := kset Bin.empty st.bins n Bin.empty }
    let s := s.modGang b.gang fun g =>
      { g with intake := b.items.foldl (fun es i => markTaken i (groupKey b.gang k) es) g.intake }
    (s.startGroup b.gang k b.stage role r).acquireAt stall
  | _, _ => s

/-- BIN_GROUP_START: the lowest-numbered due bin for which there is room becomes a group (R39, R146, R204). -/
def execBinGroupStart (stall : Nat) (s : State) : Host.Outcome State Fault Refusal :=
  match (s.stall stall).bins.find? fun p => s.binStarts stall p.2 with
  | some (n, b) => happens (s.closeBin stall n b)
  | none => idle s

/-! ### TASK.RUN (R384) -/

/-- A request finds a slot and registers after woken groups and bins (R204, R384). -/
def State.requestFits (s : State) (stall gang : Nat) (q : RunReq) : Bool :=
  s.requestReady gang q &&
  s.roomFor stall (s.roleRegs gang q.stage) (s.wokenSlots stall + s.binSlots stall) (s.wokenRegs stall + s.binRegs stall)

/-- A request can be served now, and none of the stall's published before it can (R384). -/
def State.requestStarts (s : State) (gang : Nat) (q : RunReq) : Bool :=
  let stall := s.runsOn gang
  s.requestFits stall gang q &&
  (s.requestsOn stall).all fun x => q.order ≤ x.2.order || !s.requestFits stall x.1 x.2

/-- Start a task in a group of its own (R86, R175, R384): an acquire of its publication (R135). -/
def State.startTask (s : State) (gang : Nat) (q : RunReq) : State :=
  let stall := s.runsOn gang
  match s.freeNumber gang, s.role? gang q.stage, s.structLoc stall q.task 128 with
  | some n, some role, some rec' =>
    let r := s.taskStart q.task rec' 0
    let s := s.modGang gang fun g => { g with runReqs := g.runReqs.filter (· != q) }
    let s := (s.setRecord rec' 1 0).reserveTask gang q.task q.need
    let s := s.startGroup gang n q.stage role r
    let s := s.setWordAt rec' 10 (rWord (s.gang gang).stall (s.group (groupKey gang n)).slot)
    s.acquireAt stall
  | _, _, _ => s

/-- TASK_RUN_START: the gang's request whose turn it is starts; lapsed requests go. -/
def execTaskRunStart (gang : Nat) (s : State) : Host.Outcome State Fault Refusal :=
  let live := s.liveRequests gang
  let s' := s.modGang gang fun g => { g with runReqs := live }
  match live.find? fun q => s.requestStarts gang q with
  | some q => happens (s'.startTask gang q)
  | none => when (live != (s.gang gang).runReqs) s s'

/-! ### Issue age (R205) -/

/-- ISSUE_AGE_ROTATE: after 64 issue cycles in a row the group takes the youngest age. -/
def execIssueAgeRotate (grp : Nat) (s : State) : Host.Outcome State Fault Refusal :=
  let stall := s.runsOn (gangOf grp)
  when (64 ≤ (s.group grp).streak) s
    ((s.modStall stall fun st => { st with ages := (st.ages.filter (· != grp)) ++ [grp] }).modGroup grp
      fun g => { g with streak := 0 })

/-! ### A gang's bytes, on its stall or imaged out -/

def State.allocRead (s : State) (gang off n : Nat) : List Byte :=
  let g := s.gang gang
  match g.allocImage with
  | some m => m.readN off n
  | none => (s.stall (s.runsOn gang)).scratch.readN (g.scrbase + off) n

def State.allocWrite (s : State) (gang off : Nat) (bs : List Byte) : State :=
  let g := s.gang gang
  match g.allocImage with
  | some m =>
    s.modGang gang fun g =>
      { g with allocImage := some (m.writeN off bs)
               imagePoison := g.imagePoison.filter fun a => !(off ≤ a && a < off + bs.length) }
  | none => s.scrWrite (s.runsOn gang) (g.scrbase + off) bs

/-- UPDATE of the object at an own offset of a gang (R328). -/
def State.allocObject (s : State) (gang off db : Nat) : State :=
  s.allocWrite gang (off + 8) (objectAfter (s.allocRead gang off 20) 0 db)

/-- Zero an allocation with its zero-map bits and its poison (R90). -/
def State.zeroAlloc (s : State) (stall base size : Nat) : State :=
  let s := s.modStall stall fun st =>
    { st with scratch := st.scratch.filter (fun c => !(base ≤ c.1 && c.1 < base + size)),
              zmap := st.zmap.filter (fun z => !(base ≤ 32 * z.1 && 32 * z.1 < base + size)) }
  { s with poison := s.poison.filter fun p => !(scrKey stall base ≤ p.1 && p.1 < scrKey stall base + size) }

/-! ### Parking (R180, R207, R209) -/

/-- The record of a running task takes STATE parked, with the place of the park record: a free value (R174, log 3). -/
def State.parkRecord (s : State) (grp : Nat) : State :=
  let g := s.group grp
  let stall := s.runsOn (gangOf grp)
  if g.r.taskId = 0 then s
  else
    match s.structLoc stall g.r.taskId 128 with
    | none => s
    | some rec' =>
      if recState (s.wordAt rec' 3) = 1 then
        let s := (s.setRecord rec' 2 0).setWordAt rec' 9 (Config.freeWord s.free)
        { s.setWordAt rec' 10 (rWord (s.gang (gangOf grp)).stall g.slot) with free := s.free + 1 }
      else s

/-- A group of the gang has a command in one of the engines' queues, a GROOM at any stable (R153). -/
def State.engineBusy (s : State) (gang : Nat) : Bool := !(s.gangCmds gang).isEmpty

/-- Cycles of a stable's clock in the ticks since the gang took the stall on which it stands (R192, R197). -/
def State.gangCycles (s : State) (g : Gang) : Nat :=
  if g.live || g.phase = .ending then (s.ptime - g.placedAt).toNat * 1000 / 1176 else 0

/-- Every group of a gang is parked, woken or gone, and none of its engine commands runs. -/
def State.allParked (s : State) (gang : Nat) : Bool :=
  let gs := (s.groupsOf gang).map s.group
  gs.any (fun g => g.standing != .exited) && gs.all (fun g => g.standing != .slot) && !s.engineBusy gang

/-- Image a gang's allocation, with its poison, and its banks out, and free them; the cycles that it has run count, those in
which it is imaged out do not (R102, R180, R197, R333). -/
def State.imageOut (s : State) (gang : Nat) : State :=
  let g := s.gang gang
  let stall := s.runsOn gang
  let m : Memory := ((s.stall stall).scratch.filter fun c => g.scrbase ≤ c.1 && c.1 < g.scrbase + g.scrsize).map
    fun c => (c.1 - g.scrbase, c.2)
  let key := scrKey stall g.scrbase
  let bad := (s.poison.filter fun p => key ≤ p.1 && p.1 < key + g.scrsize).map fun p => p.1 - key
  let s := s.imageBanks stall gang
  let s := s.modStall stall fun st =>
    { st with banks := st.banks.map fun b =>
        match b.bound with | some (k, _) => if k = gang then Bank.fresh else b | none => b }
  s.modGang gang fun g =>
    { g with allocImage := some m, imagePoison := bad, phase := .imaged, cycles := g.cycles + s.gangCycles g }

/-- Records written find their blocks in the gang's partner barn (R177). -/
def State.recordsFit (s t : State) (gang : Nat) : Bool :=
  let b := partnerBarn (stableOf (s.gang gang).stall)
  t.usedBlocks b ≤ s.usedBlocks b || t.usedBlocks b ≤ areaBlocks

/-- A gang of a launch that a pre-emption request holds is imaged out once it is wholly parked (R209), if its image finds
blocks (R177). -/
def State.imageIfHeld (s : State) (gang : Nat) : State :=
  if s.preempted (lidOf gang) && s.allParked gang && (s.gang gang).live && s.recordsFit (s.imageOut gang) gang
  then s.imageOut gang else s

/-- A group writes its park record and releases its slot (R128, R180, R207). -/
def State.afterPark (s : State) (grp : Nat) (w : Wake) : State :=
  ((s.grantAll grp).parkRecord grp).leaveSlot grp (.parked w)

/-- A debugger has halted the group in its slot (R232). -/
def State.isHalted (s : State) (grp : Nat) : Bool :=
  (kget DbgCtl.off (s.stall (s.gang (gangOf grp)).stall).dbg (s.group grp).slot).halted

/-- GROUP_PARK: a group at a blocking point writes its park record, if that finds its blocks (R177), and releases its slot,
unless a debugger has halted it (R232); for a group that is parked or woken already, its held gang is imaged out (R180, R207,
R209). -/
def execGroupPark (grp : Nat) (s : State) : Host.Outcome State Fault Refusal :=
  let g := s.group grp
  match g.standing, g.blocked with
  | .slot, some w =>
    let s' := s.afterPark grp w
    when (!g.probing && !isCallable grp && !s.isHalted grp && s.recordsFit s' (gangOf grp)) s
      (s'.imageIfHeld (gangOf grp))
  | .slot, none => idle s
  | .exited, _ => idle s
  | _, _ =>
    let s' := s.imageIfHeld (gangOf grp)
    when (s' != s) s s'

/-- A request takes force: each group of its launch that stands at a blocking point parks at once (R209). -/
def State.parkHeld (s : State) (lid : BitVec 32) : State :=
  ((s.groups.filter fun p => lidOf (gangOf p.1) = lid && p.2.standing = .slot && p.2.blocked.isSome).map Prod.fst).foldl
    (fun s k =>
      match execGroupPark k s with
      | .next t => t
      | _ => s) s

/-! ### Waking (R180, R204, R210) -/

/-- A task is done, faulted, or open to adoption by the group at `cur`; or its record is malformed, which the repeated
instruction reports (R174). -/
def State.taskSettled (s : State) (t : Word) : Bool :=
  match s.structLoc s.here t 128 with
  | none => false
  | some rec' => !s.recordOk rec' || 3 ≤ recState (s.wordAt rec' 3) || s.mayAdopt t rec'

/-- The slot at HEAD that a QWAIT waits on is no longer as the group's AWAIT says: it is filled, malformed, promised by another
task or by one that is settled, or its promise is gone (R391). -/
def State.headChanged (s : State) (header : Word) (q : Nat) (head : Word) : Bool :=
  match s.entryLoc s.here header (head.toNat % max 1 ((s.wordAt q 0).extractLsb' 0 32).toNat) with
  | none => true
  | some e =>
    let w1 := s.wordAt e 1
    !s.entryOk e || 2 ≤ entryState w1 ||
    (if entryState w1 = 1 then entryProducer w1 ≠ s.regs.await || s.taskSettled (entryProducer w1) else s.regs.await ≠ 0)

/-- The condition of a wake, for the group at `cur`. -/
def State.wakeHolds (s : State) (w : Wake) : Bool :=
  match w with
  | .barrier off n =>
    let own := off - s.myGang.scrbase
    let obj := s.allocRead (gangOf s.cur) own 20
    let round := BitVec.ofNat 32 (leValue (obj.drop 16))
    let d := (round - n).toNat
    1 ≤ d && d ≤ 0x7FFFFFFF
  | .room header r =>
    match s.structLoc s.here header 64 with
    | none => true
    | some q =>
      !s.queueOk q || (s.wordAt q 2 - s.wordAt q 1).toNat < ((s.wordAt q 0).extractLsb' 0 32).toNat ||
      !(s.wordAt q 3).getLsbD r
  | .items header was =>
    match s.structLoc s.here header 64 with
    | none => true
    | some q => !s.queueOk q || s.wordAt q 3 ≠ 0 || s.wordAt q 1 ≠ was || (s.wordAt q 2 ≠ was && s.headChanged header q was)
  | .reply =>
    match s.me.errand? with
    | some o => (match o.kind with | .replied => true | .refused _ _ _ back => back | _ => false)
    | none => true
  | .future t => s.taskSettled t
  | .lock a was freed =>
    match s.structLoc s.here a 8 with
    | none => true
    | some loc =>
      let w := s.wordAt loc 0
      freed || w != was || (w &&& ~~~63#64 ≠ 0 && s.taskSettled (w &&& ~~~63#64))
  | .credit => (s.itemRoom s.here s.me.stagedItems && s.intakeRoom s.me) || s.creditDeadlock s.cur
  | .translation .. => false

/-- A woken group whose task was parked runs it again only if no other party has taken it (R175, R210). A park on a translation
leaves the record running (R174, R217), and then the task is still this group's unless an adoption entry has claimed it. -/
def State.claimWake (s : State) (grp : Nat) : Option State :=
  let t := (s.group grp).r.taskId
  if t = 0 then some s
  else
    match s.structLoc (s.runsOn (gangOf grp)) t 128 with
    | none => some s
    | some rec' =>
      if recState (s.wordAt rec' 3) = 2 then some ((s.setRecord rec' 1 0).setWordAt rec' 9 0)
      else if s.groups.any (fun p => p.2.claim.any fun c => c.1 = t) then none
      else some s

/-- A slot of a logical stall is held by another group than this. -/
def State.slotTaken (s : State) (stall slot grp : Nat) : Bool :=
  s.groups.any fun p =>
    p.1 ≠ grp && p.2.standing = .slot && p.2.slot = slot && !isCallable p.1 && (s.gang (gangOf p.1)).stall = stall

/-- A debugger's attachment goes with a group that takes another slot (R226, R232); what another group holds in the slot it left
stays there. DESIGN CHOICE (log 71). -/
def State.moveDbg (s : State) (grp old : Nat) : State :=
  let stall := (s.gang (gangOf grp)).stall
  let new := (s.group grp).slot
  if new = old || s.slotTaken stall old grp then s
  else (s.setDbg stall new (kget DbgCtl.off (s.stall stall).dbg old)).setDbg stall old DbgCtl.off

/-- A step that parked ends at the wake, with the group halted (R232); `old` is the slot it left. The attachment is the group's
where another group has the old slot by now (log 71). -/
def State.endStep (s : State) (grp old : Nat) : State :=
  let g := s.group grp
  let stall := (s.gang (gangOf grp)).stall
  let s := s.modGroup grp fun g => { g with stepping := false }
  if g.stepping && (kget DbgCtl.off (s.stall stall).dbg old).att then
    let s := s.moveDbg grp old
    (s.setDbg stall g.slot { kget DbgCtl.off (s.stall stall).dbg g.slot with att := true, halted := true }).appendEvent
      (s.eventOf 12 0 g.r.pc grp g.r.taskId)
  else s

/-- A group takes a slot again and goes on where it waited (R180, R204). -/
def State.resume (s : State) (grp : Nat) : State :=
  match s.claimWake grp with
  | none => s
  | some s =>
    let s := (s.takeSlot grp).endStep grp (s.group grp).slot
    let t := (s.group grp).r.taskId
    match (if t = 0 then none else s.structLoc (s.runsOn (gangOf grp)) t 128) with
    | some rec' => s.setWordAt rec' 10 (rWord (s.gang (gangOf grp)).stall (s.group grp).slot)
    | none => s

/-- Mark a parked group as woken: it waits for a slot behind the groups woken before it (R204). -/
def State.markWoken (s : State) (grp : Nat) : State :=
  let s := s.modStall (s.runsOn (gangOf grp)) fun st => { st with wakes := (st.wakes.filter (· != grp)) ++ [grp] }
  s.modGroup grp fun g => { g with standing := .woken }

/-- A woken group can take a slot: it is the first that waits, and its gang holds its allocation. -/
def State.canResume (s : State) (grp : Nat) : Bool :=
  let stall := s.runsOn (gangOf grp)
  s.wakeWaits grp && (s.stall stall).wakes.find? s.wakeWaits = some grp &&
  s.roomFor stall (s.group grp).vbudget 0 0

/-- A woken group takes its slot, from its park record. -/
def State.resumeOrEnd (s : State) (grp : Nat) : State :=
  if s.recordsDead (gangOf grp) then s.endGang (gangOf grp) Cause.poison.code 0 grp else s.resume grp

/-- GROUP_WAKE (R204): the wake condition of a parked group holds, and it takes a slot if one is free for it. -/
def execGroupWake (grp : Nat) (s : State) : Host.Outcome State Fault Refusal :=
  match (s.group grp).standing with
  | .parked w =>
    if (s.gang (gangOf grp)).holds && !s.preempted (lidOf (gangOf grp)) && !s.taskClaimed grp &&
        ({ s with cur := grp } : State).wakeHolds w then
      let s' := s.markWoken grp
      happens (if s'.canResume grp then s'.resumeOrEnd grp else s')
    else idle s
  | .woken => when (s.canResume grp) s (s.resumeOrEnd grp)
  | _ => idle s

/-! ### GBAR (R377) -/

/-- TASKID at depth 0. -/
def Group.baseTask (g : Group) : Word := ((g.frames.getLast?).map fun f => f.regs.taskId).getD g.r.taskId

/-- The participants of a gang's GBAR. -/
def State.gbarGroups (s : State) (gang : Nat) : List Nat :=
  (s.groupsOf gang).filter fun k => (s.group k).standing != .exited && (s.group k).baseTask = 0

/-- The bytes of a gang's receive ranges (R179). -/
def State.receiveBytes (s : State) (gang : Nat) : List (Nat × List Byte) :=
  (s.launch (lidOf gang)).roles.flatMap fun r => r.rranges.map fun x => (x.off, s.allocRead gang x.off x.len)

/-- The log after a GBAR image: item entries alone stay (R181, R425). In replay nothing is trimmed, and an entry that has been
applied is in the image and is not applied to it again (R179, R222). -/
def Gang.trimIntake (g : Gang) : Gang :=
  if g.phase = .running then { g with intake := g.intake.filter fun e => e.parcel.isItem }
  else
    { g with intake := g.intake.map fun e =>
        if e.parcel.isItem || g.toApply.contains e then e else { e with imaged := true } }

/-- A GBAR instance completes: the receive ranges are imaged and the groups leave (R179, R377). -/
def State.afterGbar (s : State) (gang : Nat) : State :=
  let n := (s.gang gang).gbarDone + 1
  let image := s.receiveBytes gang
  (s.gbarGroups gang).foldl (fun s k => s.modGroup k fun g => { g with stage42 := .none })
    (s.modGang gang fun g => { g.trimIntake with gbarDone := n, receiveImage := image })

/-- GBAR_COMPLETE: every participant has arrived, and the image finds its blocks (R177, R377). -/
def execGbarComplete (gang : Nat) (s : State) : Host.Outcome State Fault Refusal :=
  let ks := s.gbarGroups gang
  let n := (s.gang gang).gbarDone + 1
  let s' := s.afterGbar gang
  when (!ks.isEmpty && (ks.all fun k => (s.group k).stage42 = .gbar && (s.group k).gbars = n) && s.recordsFit s' gang) s
    (s'.acquireAt (s.runsOn gang))

/-! ### Credit commits (R45, R46, R92, R181, R222) -/

/-- The gang, the own offset and the length that a part touches. -/
def State.partSpan (s : State) (p : Nat × Parcel) : Option (Nat × Nat × Nat) :=
  let base := (s.gang p.1).scrbase
  match p.2 with
  | .bytes _ off bs => some (p.1, off - base, bs.length)
  | .mailbox off bs => some (p.1, off - base, bs.length)
  | .count _ off _ => some (p.1, off - base, 32)
  | _ => none

/-- A part has lost its gang: it is dropped (R46). -/
def State.partDead (s : State) (p : Nat × Parcel) : Bool :=
  match s.gang? p.1 with
  | none => true
  | some g => g.phase = .ending

/-- A part waits at the partner barn: its gang has lost its stall or is being restored (R222). -/
def State.partAtBarn (s : State) (p : Nat × Parcel) : Bool :=
  let g := s.gang p.1
  !s.partDead p && (g.phase = .lost || g.phase = .restoring)

/-- A part waits: its gang restarts, or its bytes are locked (R92, R222). -/
def State.partWaits (s : State) (p : Nat × Parcel) : Bool :=
  let g := s.gang p.1
  !s.partDead p &&
  (g.phase = .lost || g.phase = .restoring ||
   match s.partSpan p with
   | some (_, off, n) => g.allocImage.isNone && (s.stall (s.runsOn p.1)).locked false (g.scrbase + off) n true
   | none => false)

/-- Commit one part: its bytes, or its count, and its entry in the intake log (R45, R181). -/
def State.commitPart (s : State) (p : Nat × Parcel) : State :=
  if s.partDead p then s
  else
    match p.2, s.partSpan p with
    | .bytes _ _ bs, some (gk, off, _) => (s.allocWrite gk off bs).logIntake gk p.2
    | .mailbox _ bs, some (gk, off, _) => (s.allocWrite gk off bs).logIntake gk p.2
    | .count _ _ n, some (gk, off, _) => (s.allocObject gk off n).logIntake gk p.2
    | _, _ => s

/-- CREDIT_COMMIT: the first commit at a receiving stall that does not wait at a partner barn takes effect (log 43);
one that a range lock holds back holds back those behind it. -/
def execCreditCommit (stall : Nat) (s : State) : Host.Outcome State Fault Refusal :=
  let i := (s.stall stall).commits.findIdx fun c => !c.parts.any s.partAtBarn
  match (s.stall stall).commits[i]? with
  | none => idle s
  | some c =>
    let s' := s.modStall stall fun st => { st with commits := st.commits.eraseIdx i }
    when (!c.parts.any fun p => s.partWaits p) s (c.parts.foldl State.commitPart s')

end Sys2Proof.Machine
end

