-- ==== Sys2Proof/Machine/Launches.lean ====
section
/-!
DEFINITION. From the launch queue to the stall: the launch block (R29 to R31, R141), the choice of a queue (R195 to R199), the
placement of a gang (R200 to R202), withdrawals (R152, R203), retirement (R32, R145, R197, R211), and the re-placement of a
gang imaged out (R204).
-/

namespace Sys2Proof.Machine

/-! ### Accesses of the panel distributor -/

/-- A translation that the panel makes outside any stall, with supervisor privilege (R31). -/
def State.panelPhys (s : State) (va : Word) (n : Nat) (w : Want) : Except Cause Nat :=
  if va.toNat / 2 ^ 57 ≠ 0 then .error .permission
  else
    match s.walk va with
    | .error f => .error f.cause
    | .ok t =>
      let pa := t.pa va.toNat
      if (w = .write && !pteW t.pte) || !s.physOk t pa n w then .error .permission
      else .ok (if pteFor t.pte then foreignLoc (pteHome t.pte) pa else pa)

/-- Some byte of an interval of locations is poisoned or cannot be reached. -/
def State.homePoison (s : State) (loc n : Nat) : Bool :=
  (List.range n).any fun i => s.poisonAt (loc + i) || s.unreachable (loc + i)

/-! ### The launch block (R29 to R31) -/

/-- A range word: none where it breaks R30, and an unused range is no range. -/
def parseRange (x scr : Nat) : Option (List Range) :=
  let off := x % 2 ^ 16 * 16
  let len := x / 2 ^ 16 * 16
  if len = 0 then (if x = 0 then some [] else none)
  else if off + len ≤ scr then some [{ off := off, len := len }] else none

/-- One used role entry of 384 bits. -/
def parseRole (x scr : Nat) : Option Role :=
  let entry := fld x 63 0
  let vb := fld x 71 64
  let groups := fld x 79 72
  let cv := fld x 87 80
  if fld x 127 88 ≠ 0 || fld x 383 320 ≠ 0 || vb % 8 ≠ 0 || vb = 0 || 64 < vb || groups = 0 || 16 < groups || vb < cv ||
     5 ≤ entry % 8 then none
  else
    match parseRange (fld x 223 192) scr, parseRange (fld x 255 224) scr, parseRange (fld x 287 256) scr,
          parseRange (fld x 319 288) scr with
    | some c0, some c1, some r0, some r1 =>
      some { entry := BitVec.ofNat 64 entry, vbudget := vb, groups := groups, carryV := cv,
             carryS := BitVec.ofNat 64 (fld x 191 128) &&& ~~~1#64, cranges := c0 ++ c1, rranges := r0 ++ r1 }
    | _, _, _, _ => none

/-- A launch from its block's 2,048 bits: none where R31 rejects it. -/
def parseLaunch (queue x : Nat) : Option Launch :=
  let gx := fld x 79 64
  let gy := fld x 95 80
  let gz := fld x 111 96
  let n := fld x 119 112
  let scr := fld x 159 128
  let donea := fld x 319 256
  let entry := fun k => fld x (511 + 384 * (k + 1)) (512 + 384 * k)
  let headOk := fld x 127 121 = 0 && fld x 191 160 = 0 && fld x 511 320 = 0 && gx ≠ 0 && gy ≠ 0 && gz ≠ 0 &&
    gx * gy * gz ≤ 2 ^ 32 && 1 ≤ n && n ≤ 4 && scr % 256 = 0 && scr ≤ 262144 && donea % 8 = 0 &&
    (List.range 4).all fun k => k < n || entry k = 0
  if !headOk then none
  else
    match (List.range n).mapM fun k => parseRole (entry k) scr with
    | none => none
    | some roles =>
      if 16 < (roles.map Role.groups).sum || 512 < (roles.map fun r => r.groups * r.vbudget).sum then none
      else
        some { queue := queue, trapPc := BitVec.ofNat 64 (fld x 63 0), gx := gx, gy := gy, gz := gz, roles := roles,
               persist := fld x 120 120 = 1, scrSize := scr, argp := BitVec.ofNat 64 (fld x 255 192),
               donea := BitVec.ofNat 64 donea, next := 0, stuckSince := none }

/-- Read and check a block (R31, R141). -/
def State.readLaunch (s : State) (queue : Nat) (block : Word) : Option Launch :=
  if block.toNat % 256 ≠ 0 then none
  else
    match s.panelPhys block 256 .read with
    | .error _ => none
    | .ok loc => if s.homePoison loc 256 then none else parseLaunch queue (s.coherentN loc 256)

/-- The head entry leaves its queue (R141); an empty queue's deficit is 0 (R198). -/
def State.popEntry (s : State) (q : Nat) : State :=
  let x := s.queue q
  let rest := x.entries.drop 1
  s.setQueue q { x with entries := rest, headi := x.headi + 1, deficit := if rest.isEmpty then 0 else x.deficit }

/-- The head launch of a queue, once its block has been taken. -/
def State.headLaunch (s : State) (q : Nat) : Option (BitVec 32 × Launch) :=
  match (s.queue q).entries with
  | [] => none
  | e :: _ => (s.launch? e.2).map fun l => (e.2, l)

/-- DISTRIBUTOR_TAKE_BLOCK (R31, R141). -/
def execDistributorTakeBlock (queue : Nat) (s : State) : Host.Outcome State Fault Refusal :=
  match (s.queue queue).entries with
  | [] => idle s
  | (block, lid) :: _ =>
    if (s.launch? lid).isSome then idle s
    else
      match s.readLaunch queue block with
      | some l => happens { s with launches := kinsert s.launches lid.toNat l }
      | none =>
        let s := s.popEntry queue
        let s := s.setQueue queue { s.queue queue with rej := true }
        happens (s.appendEvent { Event.none with kind := 4, launch := lid, addr := block })

/-! ### Placement (R200 to R202) -/

def Launch.gangs (l : Launch) : Nat := l.gx * l.gy * l.gz
def Launch.groupCount (l : Launch) : Nat := (l.roles.map Role.groups).sum
def Launch.regCount (l : Launch) : Nat := (l.roles.map fun r => r.groups * r.vbudget).sum

/-- The lowest free SCRBASE (R201): allocations are multiples of 256, so it is 0 or the end of one of them. -/
def State.freeBase (s : State) (stall size : Nat) : Option Nat :=
  if size = 0 then some 0
  else
    let ok := (0 :: (s.gangsOn stall).map fun p => p.2.scrbase + p.2.scrsize).filter fun b => s.baseFree stall b size
    match ok with
    | [] => none
    | b :: bs => some (bs.foldl min b)

/-- R200; a gang imaged out may come first (R204). -/
def State.canPlace (s : State) (l : Launch) (stall : Nat) : Bool :=
  s.stallUp stall && s.roomForGang stall l.groupCount l.regCount && (s.freeBase stall l.scrSize).isSome &&
  !s.replaceAhead stall (s.queue l.queue).prio.toNat

/-- The stall that takes a launch's next gang (R201). -/
def State.placeFor (s : State) (l : Launch) : Option Nat := offerStables (s.canPlace l) (s.lastStable + 1) 288

/-- The groups of a launch in stage order: number, stage, role (R27). -/
def Launch.allGroups (l : Launch) : List (Nat × Nat × Role) :=
  let rs := ((List.range l.roles.length).zip l.roles).flatMap fun p => List.replicate p.2.groups p
  (List.range rs.length).zip rs

/-- Place a gang on a stall (R90, R184, R201, R202, R285); the start of its groups is an acquire (R112, R114). -/
def State.placeGang (s : State) (lid : BitVec 32) (l : Launch) (lin stall base : Nat) : State :=
  let k := gangKey lid lin
  let alone := !(s.gangsOn stall).any fun p => lidOf p.1 = lid
  let s := s.zeroAlloc stall base l.scrSize
  let s := if alone then s.modStall stall fun st => { st with lines := [] } else s
  let g : Gang := { Gang.fresh with
    stall := stall, scrbase := base, scrsize := l.scrSize, placedAt := s.ptime, order := s.nextGang }
  let s := { s.setGang k g with nextGang := s.nextGang + 1 }
  (l.allGroups.foldl
    (fun s p => s.startGroup k p.1 p.2.1 p.2.2 (s.startRegs lid l.argp p.2.2.entry 0xFFFFFFFF)) s).acquireAt stall

/-- The next gang of a launch has left its queue: the entry goes with the last one (R141), and a guard on the queue ends
(R199). -/
def State.gangLeft (s : State) (lid : BitVec 32) (l : Launch) : State :=
  let s := { s with launches := kinsert s.launches lid.toNat { l with next := l.next + 1, stuckSince := none },
                    starving := s.starving.filter (· != l.queue) }
  if l.next + 1 = l.gangs then s.popEntry l.queue else s

/-! ### The choice of a queue (R195, R196, R199) -/

/-- A queue with a gang left to place that no pre-emption request holds. -/
def State.eligible (s : State) (q : Nat) : Bool :=
  match s.headLaunch q with
  | some (lid, l) => l.next < l.gangs && !s.preempted lid
  | none => false

/-- The guards of R199 leave a queue alone or hold it; a limit of 0 disables them. A queue that a guard holds raises none of its
own (log 63). -/
def State.unguarded (s : State) (q : Nat) : Bool :=
  s.cfg.starve = 0 || s.starving.all fun x => q = x || (s.queue q).prio.toNat < (s.queue x).prio.toNat

/-- The eligible queues of a level: E of R196. DESIGN CHOICE (log 63): a queue that a guard holds back is not of E while the guard
stands, so it receives no rounds of quantum and keeps no other queue from them. -/
def State.levelQueues (s : State) (p : Nat) : List Nat :=
  (kkeys s.lq).filter fun q => q < 64 && (s.queue q).prio.toNat = p && s.eligible q && s.unguarded q

/-- A signed 64-bit sum that saturates (R191). -/
def satDeficit (x : Int) : Int := max (-2 ^ 63) (min (2 ^ 63 - 1) x)

/-- A round's quantum: 0 acts as 1. -/
def LaunchQueue.round (x : LaunchQueue) : Int := Int.ofNat (max 1 x.quantum.toNat)

/-- Rounds needed before a queue's deficit is not negative. -/
def LaunchQueue.rounds (x : LaunchQueue) : Nat := ((-x.deficit + x.round - 1) / x.round).toNat

/-- Add the rounds of R196 when every eligible queue of a level is in deficit. -/
def State.topUp (s : State) (qs : List Nat) : State :=
  if qs.isEmpty || qs.any fun q => 0 ≤ (s.queue q).deficit then s
  else
    let ks := qs.map fun q => (s.queue q).rounds
    let k := max 1 (ks.foldl min (ks.headD 1))
    qs.foldl (fun s q => s.setQueue q { s.queue q with
      deficit := satDeficit ((s.queue q).deficit + Int.ofNat k * (s.queue q).round) }) s

/-- Queues in ascending number from a pointer, wrapping at 64. -/
def fromPointer (ptr : Nat) (qs : List Nat) : List Nat := qs.filter (fun q => ptr ≤ q) ++ qs.filter (fun q => q < ptr)

/-- What the distributor decides: the state after its top-ups, and the queue it serves with the stall. -/
def State.decide (s : State) : List Nat → State × Option (Nat × Nat)
  | [] => (s, none)
  | p :: ps =>
    let qs := s.levelQueues p
    let s := s.topUp qs
    let ready := (fromPointer (s.ptrs.getD p 0) qs).filter fun q => 0 ≤ (s.queue q).deficit
    match ready.findSome? fun q => (s.headLaunch q).bind fun h => (s.placeFor h.2).map fun t => (q, t) with
    | some x => (s, some x)
    | none => State.decide s ps

/-- Note since when each eligible queue's next gang has had no place (R199). -/
def State.noteStuck (s : State) : State :=
  (kkeys s.lq).foldl
    (fun s q =>
      match s.headLaunch q with
      | some (lid, l) =>
        let stuck := s.eligible q && (s.placeFor l).isNone
        let since := if stuck then some (l.stuckSince.getD s.ptime) else none
        { s with launches := kinsert s.launches lid.toNat { l with stuckSince := since } }
      | none => s) s

/-- Serve a queue: its next gang goes to a stall (R196, R201). -/
def State.serve (s : State) (q stall : Nat) : State :=
  match s.headLaunch q with
  | none => s
  | some (lid, l) =>
    let p := (s.queue q).prio.toNat
    let base := (s.freeBase stall l.scrSize).getD 0
    let s := s.placeGang lid l l.next stall base
    let s := s.gangLeft lid l
    { s with ptrs := s.ptrs.set p ((q + 1) % 64), lastStable := stableOf stall }

/-- A queue's next gang has had no place for longer than the limit, and no guard stands on the queue or holds it (R199). -/
def State.starves (s : State) (q : Nat) : Bool :=
  match s.headLaunch q with
  | none => false
  | some (_, l) =>
    l.stuckSince.any fun t =>
      s.cfg.starve ≠ 0 && s.eligible q && s.unguarded q && !s.starving.contains q &&
      s.cfg.starve.toNat * 1024 < (s.ptime - t).toNat

/-- Guards go up as their limits pass; of queues that pass it together, from the lowest number (R199, log 63). -/
def State.raiseGuards (s : State) : State :=
  (kkeys s.lq).foldl (fun s q => if s.starves q then { s with starving := q :: s.starving } else s) s

/-- GANG_PLACEMENT: the distributor makes one decision (R196), under the guards that stand (R199). -/
def execGangPlacement (s : State) : Host.Outcome State Fault Refusal :=
  match s.raiseGuards.decide [0, 1, 2, 3] with
  | (s', some (q, t)) => happens (s'.serve q t).noteStuck
  | (s', none) =>
    let s'' := s'.noteStuck
    when (s'' != s) s s''

/-- STARVATION_LIMIT: a queue's next gang has had no place for longer than the limit (R199). -/
def execStarvationLimit (queue : Nat) (s : State) : Host.Outcome State Fault Refusal :=
  when (s.starves queue) s { s with starving := queue :: s.starving }

/-! ### Withdrawals (R152, R203) -/

/-- A mailbox (R151): the withdrawn gang, or NONE. -/
def mailboxBytes (l : Launch) (lin : Option Nat) : List Byte :=
  match lin with
  | none => leBytes 32 (2 ^ 63)
  | some i =>
    leBytes 32 (i % l.gx + i / l.gx % l.gy * 2 ^ 16 + i / l.gx / l.gy * 2 ^ 32 + i * 2 ^ 64)

/-- A mailbox and the count of its bytes on the object before it go to the gang's stall as one commit: they are credited, and
logged, as they are written there, behind the commits before them (R92, R152). -/
def State.fillMailbox (s : State) (gang off : Nat) (bs : List Byte) : State :=
  let base := (s.gang gang).scrbase
  let t := (s.gang gang).stall
  s.modStall (s.hostOf t) fun st =>
    { st with commits := st.commits ++
        [{ parts := [(gang, .mailbox (base + off + 32) bs), (gang, .count t (base + off) 32)] }] }

/-- Serve one request, where it arrives (R203). -/
def State.withdraw (s : State) (r : FetchReq) : State :=
  let lid := lidOf r.gang
  match s.launch? lid with
  | none => s
  | some l =>
    if l.persist && l.next < l.gangs then
      let s := s.modGang r.gang fun g => { g with withdrawn := g.withdrawn + 1 }
      (s.fillMailbox r.gang r.off (mailboxBytes l (some l.next))).gangLeft lid l
    else s.fillMailbox r.gang r.off (mailboxBytes l none)

/-- FETCHW_SERVE: the first request at the distributor; one of a gang that is gone is dropped. -/
def execFetchwServe (s : State) : Host.Outcome State Fault Refusal :=
  match s.fetchReqs with
  | [] => idle s
  | r :: rest =>
    let s' := { s with fetchReqs := rest }
    happens (if s.partDead (r.gang, .fetchw r.off) then s' else s'.withdraw r)

/-! ### Retirement (R145, R197, R211) -/

/-- No item of a gang is queued, spilled or in a bin (R145): the spill area is that of its own logical stall (R227). -/
def State.noItems (s : State) (gang : Nat) : Bool :=
  let st := s.stall (s.runsOn gang)
  !(st.itemq ++ (s.stall (s.gang gang).stall).spill).any (fun i => i.gang = gang) && st.bins.all fun b => b.2.gang != gang

/-- A gang has finished: its groups are gone or were stopped (R219), its items, its engine operations and its callables are gone
too. -/
def State.gangDone (s : State) (gang : Nat) : Bool :=
  let st := s.stall (s.runsOn gang)
  let g := s.gang gang
  (s.gang? gang).isSome && (g.phase = .ending || (g.holds && s.noGroup gang)) &&
  s.noItems gang && !s.engineBusy gang &&
  !(st.calls ++ st.calling.toList).any fun q => q.gang = gang

/-- The charge of a gang (R197), discarded when its queue is empty (R198). -/
def State.charge (s : State) (gang cycles : Nat) : State :=
  let q := (s.launch (lidOf gang)).queue
  let x := s.queue q
  let c := (cycles * (s.gang gang).slotsMax + 15) / 16
  if x.entries.isEmpty then s else s.setQueue q { x with deficit := satDeficit (x.deficit - Int.ofNat c) }

/-- A failure of a gang's DONEA add is reported against its launch (R32, log 18). -/
def State.doneFault (s : State) (gang : Nat) (a : Word) (c : Cause) : State :=
  s.appendEvent { Event.none with
    kind := 2, cause := BitVec.ofNat 8 c.code, launch := lidOf gang, addr := a, gang := BitVec.ofNat 32 (linOf gang) }

/-- The DONEA add (R32): the gang itself and those it withdrew (R152). -/
def State.addDone (s : State) (gang : Nat) : State :=
  let a := (s.launch (lidOf gang)).donea
  if a = 0 then s
  else
    match s.panelPhys a 8 .write with
    | .ok loc =>
      if s.homePoison loc 8 then s.doneFault gang a .poison
      else s.writeCoherentN loc 8 (s.wordAt loc 0 + BitVec.ofNat 64 (1 + (s.gang gang).withdrawn)).toNat
    | .error c => s.doneFault gang a c

/-- Free what a gang held (R184, R211, R331). -/
def State.freeGang (s : State) (gang : Nat) : State :=
  let stall := s.runsOn gang
  let s := s.modStall stall fun st =>
    { st with
      banks := st.banks.map fun b => match b.bound with | some (k, _) => if k = gang then Bank.fresh else b | none => b
      ages := st.ages.filter fun k => gangOf k != gang
      wakes := st.wakes.filter fun k => gangOf k != gang }
  { s with groups := s.groups.filter (fun p => gangOf p.1 != gang), gangs := kerase s.gangs gang }

/-- A context that its launch has left is free; its stalls hold A and Q as they stood until the next binding (R392, R393,
R403). -/
def Yard.freed (y : Yard) : Yard := { Yard.free with arrived := y.arrived, rounds := y.rounds }

/-- With the last gang of a launch its record goes, and the yard contexts it bound are free (R392). -/
def State.closeLaunch (s : State) (lid : BitVec 32) : State :=
  let l := s.launch lid
  if l.next < l.gangs || s.gangs.any (fun g => lidOf g.1 = lid) then s
  else
    let ctxs := (kkeys s.yards).filter fun c => (s.yard c).launch = lid
    let s := ctxs.foldl (fun s c => s.setYard c (s.yard c).freed) s
    { s with launches := kerase s.launches lid.toNat }

/-- Write a logical stall's spare-map and hosting entry (R185, R227). -/
def State.setSpare (s : State) (stall : Nat) (e : Spare) : State :=
  let d := { Spare.fresh with phys := BitVec.ofNat 9 (logicalOf stall) }
  let st := s.stable (stableOf stall)
  s.setStable (stableOf stall) { st with spares := kset d st.spares (logicalOf stall) e }

/-- The hosting of a stall ends with its last hosted gang (R227). -/
def State.closeHosting (s : State) (stall : Nat) : State :=
  let e := s.spare stall
  if e.hosted && !s.gangs.any (fun g => g.2.stall = stall) then s.setSpare stall { e with hosted := false } else s

/-- The tile-tree allocations of a gang's groups that are under way end at their homes (R170). -/
def State.linkWalks (s : State) (gang : Nat) : State :=
  (s.groupsOf gang).foldl (fun s k => s.asGroup k State.linkWalk) s

/-- GANG_RETIRE (R211): the cycles of the gang's last stretch on a stall come from the stable's clock, and C adds those of the
stretches before it (R197); a gang that is imaged out has had its last stretch. An ended gang's groups end first, with the tile
blocks that one of them has taken linked or returned, none lost (R170), and its event comes last (R219). -/
def execGangRetire (gang cycles : Nat) (s : State) : Host.Outcome State Fault Refusal :=
  let g := s.gang gang
  let cycles := if g.phase = .imaged then 0 else cycles
  let s' := if g.phase = .ending then (s.linkWalks gang).endGroups gang else s
  let s' := ((s'.charge gang (g.cycles + cycles)).addDone gang).freeGang gang
  let s' := (s'.closeLaunch (lidOf gang)).closeHosting g.stall
  let s' := match g.ended with | some e => s'.appendEvent e | none => s'
  when (s.gangDone gang) s s'

end Sys2Proof.Machine
end

