-- ==== Sys2Proof/Machine/Render.lean ====
section
/-!
DEFINITION. Major 0x90: DRAW and the reservoir instructions (R356 to R361), ray queries and light trees (R363 to R366),
callables (R367, R368), the groom (R369 to R372), and the events that complete them, with the completion of loads (R187).
-/

namespace Sys2Proof.Machine

/-! ### DRAW and reservoir arithmetic -/

def coreDraw (o : Slot) (s : State) : Eff :=
  let r := s.regs
  .ok (s.setRegs (r.mapLanes .n32 o.dst fun l =>
    let x := drawOut r.rngKey0 r.rngKey1 (r.getV o.a.num l) (BitVec.ofNat 32 (laneOf o r o.b .n32 l))
    (if o.ty = .f32 then uniform x else x).toNat))
def execDraw (o : Slot) (s : State) := issueLogged (.draw o) (coreDraw o) s

/-- The registers from vn of a lane. -/
def Regs.group (r : Regs) (n count l : Nat) : List Lane := (List.range count).map fun i => r.getV (n + i) l

/-- Write consecutive registers of a lane. -/
def Regs.setGroup (r : Regs) (n l : Nat) : List Lane → Regs
  | [] => r
  | x :: xs => Regs.setGroup (r.setV n l x) (n + 1) l xs

/-- A reservoir instruction: each active lane's record is replaced, and F joins the flag register (R355, R357 to R359). -/
def Regs.foldLanes (r : Regs) (o : Slot) (f : Nat → Record × Lane) : Regs :=
  r.active.foldl (fun acc l =>
    let p := f l
    let acc := acc.setGroup o.dst.num l p.1
    if o.bit34 then acc.setV o.c.num l (acc.getV o.c.num l ||| p.2) else acc) r

def coreRsupd (o : Slot) (s : State) : Eff :=
  let r := s.regs
  .ok (s.setRegs (r.foldLanes o fun l =>
    recordUpdate (capOf r.mcap) (r.group o.dst.num 8 l) (r.group o.a.num 4 l) (BitVec.ofNat 32 (laneOf o r o.b .n32 l))))
def execRsupd (o : Slot) (s : State) := issueLogged (.rsupd o) (coreRsupd o) s

def coreRsmrg (o : Slot) (s : State) : Eff :=
  let r := s.regs
  .ok (s.setRegs (r.foldLanes o fun l =>
    recordMerge (capOf r.mcap) (r.group o.dst.num 8 l) (r.group o.a.num 8 l) (r.getV o.b.num l)
      (r.getV (o.b.num + 1) l)))
def execRsmrg (o : Slot) (s : State) := issueLogged (.rsmrg o) (coreRsmrg o) s

def coreRsnrm (o : Slot) (s : State) : Eff :=
  let r := s.regs
  .ok (s.setRegs (r.foldLanes o fun l => recordNormalise (r.group o.dst.num 8 l)))
def execRsnrm (o : Slot) (s : State) := issueLogged (.rsnrm o) (coreRsnrm o) s

/-! ### RSLD and RSST (R360, R361) -/

/-- The stable whose map cache the group's accesses use. -/
def State.myStable (s : State) : Nat := stableOf s.here

def State.cacheTiles (s : State) (ws : List Word) : State :=
  ws.foldl (fun s w => s.cacheTile s.myStable (resX w / 16) (resY w / 16)) s

def coreRsld (o : Slot) (s : State) : Eff := do
  let r := s.regs
  let recs ← gatherLanes r.active fun l =>
    match s.readRecord s.myStable (baseGlobal r o.a l) with
    | .ok x => .ok x
    | .error c => .error (LaneFault.plain c (baseGlobal r o.a l))
  if recs.isEmpty then pure s
  else
    let ws := recs.flatMap fun p => ((List.range 8).zip p.2).map fun q => RegWrite.v (o.dst.num + q.1) p.1 q.2
    pushLd (Op.taken (Instr.writesRegs (.rsld o)) ws) (s.cacheTiles (r.active.map (baseGlobal r o.a)))
def execRsld (o : Slot) (s : State) := issueLogged (.rsld o) (coreRsld o) s

/-- The record a lane stores: word 7 is zero. -/
def storedRecord (r : Regs) (n l : Nat) : Record := r.group n 7 l ++ [0]

def coreRsst (o : Slot) (s : State) : Eff := do
  let r := s.regs
  let places ← gatherLanes r.active fun l =>
    match s.recordAt s.myStable (baseGlobal r o.a l) with
    | some p => .ok p
    | none => .error (LaneFault.plain .permission (baseGlobal r o.a l))
  if places.isEmpty then pure s
  else
    let s' := s.cacheTiles (r.active.map (baseGlobal r o.a))
    let s' := places.foldl (fun s p => s.putRecord p.2.1 p.2.2 (storedRecord r o.b.num p.1)) s'
    pushSt (Op.taken [] []) s'
def execRsst (o : Slot) (s : State) := issueLogged (.rsst o) (coreRsst o) s

/-! ### Ray queries and light trees (R363, R366) -/

/-- The root's checks at issue. -/
def State.checkRoot (s : State) (root : Word) (n : Nat) : Except Stop Unit :=
  lowestFault
    (flaw (s.loftSpan (gangOf s.cur) root.toNat n) .permission root ++ flaw (root.toNat % n = 0) .misaligned root)

/-- Send the active lanes' inputs to the stable's ray units: one operation counted in LD. -/
def sendRays (i : Instr) (root : Word) (n : Nat) (kind : List (Nat × List Lane) → OpKind) (input : Nat → List Lane)
    (s : State) : Eff := do
  let _ ← s.checkRoot root n
  let ls := s.regs.active
  if ls.isEmpty then pure s
  else pushLd (Op.make (kind (ls.map fun l => (l, input l))) .n32 (Instr.writesRegs i) [] []) s

def coreRayq (o : Slot) (s : State) : Eff :=
  let r := s.regs
  let root := r.getS o.b.num
  sendRays (.rayq o) root 128 (.ray false root) (r.group o.a.num 8) s
def execRayq (o : Slot) (s : State) := issueLogged (.rayq o) (coreRayq o) s

def coreRayv (o : Slot) (s : State) : Eff :=
  let r := s.regs
  let root := r.getS o.b.num
  sendRays (.rayv o) root 128 (.ray true root) (r.group o.a.num 8) s
def execRayv (o : Slot) (s : State) := issueLogged (.rayv o) (coreRayv o) s

/-- LTREE's inputs carry the keys that its draws use. -/
def coreLtree (o : Slot) (s : State) : Eff :=
  let r := s.regs
  let root := r.getS o.b.num
  sendRays (.ltree o) root 16 (.ltree root) (fun l => r.group o.a.num 2 l ++ [r.rngKey0, r.rngKey1]) s
def execLtree (o : Slot) (s : State) := issueLogged (.ltree o) (coreLtree o) s

def dstBase (op : Op) : Nat := match op.dst with | .v n :: _ => n | _ => 0
def laneList (n l : Nat) (xs : List Lane) : List RegWrite :=
  ((List.range xs.length).zip xs).map fun p => .v (n + p.1) l p.2

/-- The register writes of a finished ray query. -/
def State.rayWrites (s : State) (gang : Nat) (op : Op) (vis : Bool) (root : Word) (inputs : List (Nat × List Lane)) :
    List RegWrite :=
  inputs.flatMap fun p =>
    let e := s.rayEnd gang root p.2
    laneList (dstBase op) p.1 (if vis then [rayvResult e] else rayqResult e)

/-- End an operation with its register writes. -/
def State.finishOp (s : State) (grp idx : Nat) (op : Op) (ws : List RegWrite) : State :=
  s.modGroup grp fun g => { g with ops := g.ops.set idx { op with result := ws } }.endOp idx

/-- The end of a ray query, where the bound on visits was passed or not (R363, R365). -/
def rayFinish (beyond : Bool) (grp idx : Nat) (s : State) : Host.Outcome State Fault Refusal :=
  match (s.group grp).ops[idx]? with
  | some op =>
    match op.kind with
    | .ray vis root inputs =>
      let gang := gangOf grp
      if (inputs.any fun p => s.rayOver gang root p.2) = beyond then
        let t := inputs.foldl (fun s p => s.serveRay (s.stableOfGang gang) gang root p.2) s
        happens (t.finishOp grp idx op (s.rayWrites gang op vis root inputs))
      else idle s
    | _ => idle s
  | none => idle s

def execRayQueryComplete (grp idx : Nat) (s : State) : Host.Outcome State Fault Refusal := rayFinish false grp idx s
def execRayVisitLimit (grp idx : Nat) (s : State) : Host.Outcome State Fault Refusal := rayFinish true grp idx s

/-- The ends of a walk's lanes. -/
def State.treeEnds (s : State) (gang : Nat) (root : Word) (inputs : List (Nat × List Lane)) : List (Nat × TreeEnd) :=
  inputs.map fun p => (p.1, s.treeEnd gang root p.2)

def treeWrites (op : Op) (ends : List (Nat × TreeEnd)) : List RegWrite :=
  ends.flatMap fun p => laneList (dstBase op) p.1 [p.2.light, p.2.pdf]

/-- The end of a light-tree walk, where some lane reached 64 steps or none did. -/
def treeFinish (steps : Bool) (grp idx : Nat) (op : Op) (root : Word) (inputs : List (Nat × List Lane)) (s : State) :
    Host.Outcome State Fault Refusal :=
  let ends := s.treeEnds (gangOf grp) root inputs
  let t := ends.foldl (fun s p => s.serveTree (s.stableOfGang (gangOf grp)) p.2) s
  if (ends.any fun p => p.2.steps) = steps then happens (t.finishOp grp idx op (treeWrites op ends)) else idle s

def execLtreeStepLimit (grp idx : Nat) (s : State) : Host.Outcome State Fault Refusal :=
  match (s.group grp).ops[idx]? with
  | some op =>
    match op.kind with
    | .ltree root inputs => treeFinish true grp idx op root inputs s
    | _ => idle s
  | none => idle s

/-- LOAD_COMPLETE (R75, R113, R187, R306, R366). -/
def execLoadComplete (grp : Nat) (what : LoadPart) (s : State) : Host.Outcome State Fault Refusal :=
  match (s.group grp).ops[what.idx]? with
  | some op =>
    match op.kind with
    | .ltree root inputs => treeFinish false grp what.idx op root inputs s
    | k =>
      if k.endsByLoad && op.countsLd && (op.performed || !(op.unread what.accs).isEmpty) then
        happens (s.completeLoad grp what.idx what.accs)
      else idle s
  | none => idle s

/-! ### Callables (R367, R368) -/

/-- TCALL's operation: what waits for the run. -/
def tcallOp (o : Slot) (s : State) : Op :=
  { Op.make .call .n32 (Instr.writesRegs (.tcall o)) [] [] with seq := s.nextOp }

def tcallReq (o : Slot) (s : State) : CallReq :=
  let r := s.regs
  { who := .group, gang := gangOf s.cur, grp := s.cur, s1 := r.getS 1, fn := r.getS o.b.num, lanes := r.exm,
    inputs := r.active.map fun l => (l, r.group o.a.num 8 l) }

/-- TCALL requests its run and waits for it; no run with EXM = 0 (R368). -/
def coreTcall (o : Slot) (s : State) : Eff :=
  if s.regs.exm = 0 then .ok s
  else
    match s.me.errand? with
    | none =>
      let s' := s.modStall s.here fun st => { st with calls := st.calls ++ [tcallReq o s] }
      .error (.holdKeep none { s'.modMe fun g => { g with ops := g.ops ++ [tcallOp o s] } with nextOp := s.nextOp + 1 })
    | some _ => errand none (fun _ => .ok none) (fun ws s => .ok (s.setRegs (s.regs.writes ws))) s
def execTcall (o : Slot) (s : State) := issueLogged (.tcall o) (coreTcall o) s

/-- TRET ends the run of the callable slot once its loads have returned (R367). -/
def execTret (o : Slot) (s : State) : Host.Outcome State Fault Refusal :=
  match s.group? s.cur with
  | none => .fault .noGroup
  | some g =>
    if isCallable s.cur && (Instr.defect (.tret o)).isNone && g.ld = 0 then
      .next { s.endRun s.cur none with last := .retired, tried := [] }
    else issue (.tret o) (fun _ => holdNow) s

/-- The registers of a run at its entry (R367). -/
def callRegs (q : CallReq) (r : Regs) : Regs :=
  let base : Regs := { Regs.zero.setS 1 q.s1 with
    pc := q.fn, exm := q.lanes, launchId := r.launchId, taskId := r.taskId, depth := r.depth }
  q.inputs.foldl (fun acc p => acc.setGroup 0 p.1 p.2) base

/-- CALLABLE_RUN_START: the oldest request takes the free callable slot; its entry is a transfer (R251, R367). -/
def execCallableRunStart (stall : Nat) (s : State) : Host.Outcome State Fault Refusal :=
  let st := s.stall stall
  match st.calling, st.calls with
  | none, q :: rest =>
    let g := s.group q.grp
    let run := { Group.fresh with
      r := callRegs q g.r, stage := g.stage, vbudget := 16, slot := numberOf q.grp, transferFrom := some 0 }
    let s := s.modStall stall fun st => { st with calls := rest, calling := some q }
    happens (s.setGroup (callableKey q.gang) run)
  | _, _ => idle s

/-- The key of the run in a stall's callable slot. -/
def Stall.runKey (st : Stall) : Option Nat := st.calling.map fun q => callableKey q.gang

/-- The issues a run may make (R367). -/
def callableIssues : Nat := 65536

/-- CALLABLE_ISSUE_LIMIT: the run ends as faulted with DEADLOCK. -/
def execCallableIssueLimit (stall : Nat) (s : State) : Host.Outcome State Fault Refusal :=
  match (s.stall stall).runKey with
  | some k =>
    let g := s.group k
    when (callableIssues ≤ g.issues) s (s.endRun k (some (.deadlock, Cause.code .deadlock, g.r.pc)))
  | none => idle s

/-! ### GROOM (R369, R370, R372) -/

/-- The flaws of a command block at ea (R370 step 1). -/
def groomFlaws (d : Nat) (ea : Word) : List LaneFault :=
  flaw (fld d 63 52 = 0 && fld d 255 224 = 0 && gmDsts d ≠ gmSrcs d && (!gmTemp d || gmDsts d ≠ gmPrevs d)) .poison ea ++
  flaw ((!gmVis d || (gmBvh d).toNat % 128 = 0) && (!gmTemp d || (gmMotion d % 4 = 0 && gmPitch d % 4 = 0))) .misaligned
    ea

/-- The tile is mapped and the three slots exist (R370 step 2). -/
def State.groomTile (s : State) (d : Nat) : Bool :=
  (s.tileHome s.myStable (gmTx d) (gmTy d)).isSome &&
  [gmSrcs d, gmPrevs d, gmDsts d].all fun x => x ≤ s.cfg.slotsm.toNat

/-- Row y of the tile in the motion buffer. -/
def motionRow (d y : Nat) : Span :=
  let lo : Int := gmMotion d + (16 * gmTy d + y) * gmPitch d + 64 * gmTx d
  { glb := true, dst := false, lo := lo, hi := lo + 64 }

/-- The intervals a GROOM registers (R370 step 4). -/
def groomSpans (d : Nat) (ea : Word) : List Span :=
  { glb := false, dst := true, lo := ea.toNat, hi := (ea.toNat + 64 : Nat) } ::
    (if gmTemp d then [{ motionRow d 0 with hi := (motionRow d 15).hi }] else [])

/-- The stable that does a tile's work for a gang: its OWNER (R166, R370); for one that is lost, the stable that runs the gang
(R228, log 70). -/
def State.groomStable (s : State) (owner gang : Nat) : Nat :=
  if (s.stable owner).lost then stableOf (s.hostOf (s.gang gang).stall) else owner

/-- Enter a command in a stable's groom queue: 64 places, counting the commands that run; CP rises (R153, R187). -/
def enterGroom (stable : Nat) (j : Job) (s : State) : Eff :=
  let sb := s.stable stable
  let c := s.cmdOf j
  if s.me.logFull (j.entry s.me c) then trapNow .deadlock
  else if 64 ≤ sb.groomq.length + sb.jobs.length || 63 ≤ s.me.cp || s.jobWaits j then holdNow
  else
    let s := s.register j sb.groomq.length
    let s := s.modStable stable fun x => { x with groomq := x.groomq ++ [c] }
    .ok (s.modMe fun g => { g with cp := g.cp + 1 })

def performGroom (t : Option Nat) (key : Word) (o : Slot) (s : State) : Eff := do
  let ea := eaScalar o s.regs
  let off ← wholeCheck (s.ownRecord (gangOf s.cur) s.here ea 64 64 .read)
  let d := s.scr s.here off 64
  let rows := if gmTemp d then (List.range 16).map (motionRow d) else []
  let pages ← s.checkSpans (groomFlaws d ea) (flaw (s.groomTile d) .permission ea) rows
  let owner := s.groomStable (tileOwner (s.tileEntry s.myStable (gmTx d) (gmTy d))) (gangOf s.cur)
  enterGroom owner
    { kind := .groom d ea.toNat s.regs.mcap (s.regs.getS 1), eng := .groom, spans := groomSpans d ea, pages := pages,
      tag := t, key := key, payload := 8, out := [] } (s.cacheTile s.myStable (gmTx d) (gmTy d))

def coreGroom (o : Slot) (s : State) : Eff :=
  let t := tagOf (scalarOf o s.regs o.b)
  let key := tagKey t s.regs.pc
  engineIssue key t (fun _ s => .ok s) (performGroom t key o) s
def execGroom (o : Slot) (s : State) := issueLogged (.groom o) (coreGroom o) s

def newGroomJob (c : Cmd) (stall stable : Nat) : GroomJob :=
  { cmd := c, stall := stall, stable := stable, pixel := 0, cand := 0, mine := [], other := [], waiting := false,
    skips := 0, cause := 0 }

/-- GROOM_START: a stable with fewer than eight running takes the head of its queue when R131 and R133 let it (R153, R371). -/
def execGroomStart (stable : Nat) (s : State) : Host.Outcome State Fault Refusal :=
  let sb := s.stable stable
  match sb.groomq with
  | [] => idle s
  | c :: rest =>
    let stall := s.hostOf (s.gang c.gang).stall
    let st := s.stall stall
    if 8 ≤ sb.jobs.length || st.blocked c.id (st.locks.filter fun l => l.cmd = c.id) || s.cmdBehind c then idle s
    else
      let s := s.modStable stable fun x =>
        { x with groomq := rest, jobs := x.jobs ++ [newGroomJob c stall stable] }
      let s := s.cacheTile stable (gmTx c.groomDesc) (gmTy c.groomDesc)
      happens (s.groomOn stable c.id)

/-- The bytes that completion writes into the command block (R369). -/
def GroomJob.report (j : GroomJob) : List Byte := leBytes 8 (j.skips + j.cause * 2 ^ 16)
def Cmd.groomOff (c : Cmd) : Nat := match c.kind with | .groom _ off .. => off | _ => 0

/-- GROOM_COMPLETE (R372). -/
def execGroomComplete (stable idx : Nat) (s : State) : Host.Outcome State Fault Refusal :=
  match (s.stable stable).jobs[idx]? with
  | some j =>
    if j.done then
      let off := j.cmd.groomOff + 56
      let s := s.scrWrite j.stall ((s.gang j.cmd.gang).scrbase + off) j.report
      let s := s.modStable stable fun x => { x with jobs := x.jobs.eraseIdx idx }
      happens (s.endCart j.stall j.cmd (cellsOf [(off, j.report)]) none)
    else idle s
  | none => idle s

end Sys2Proof.Machine
end

