-- ==== Sys2Proof/Machine/Restart.lean ====
section
/-!
DEFINITION. The loss of a stall and its replacement or hosting (R185, R221, R226 to R228), the restoring of a gang (R87, R222,
R223, R333, R425), and the return from replay (R181, R225).
-/

namespace Sys2Proof.Machine

/-! ### The loss of a stall (R221, R222) -/

/-- A command of the plane array names the physical bank it acts on. -/
def CmdKind.onBank (k : CmdKind) (b : Nat) : CmdKind :=
  match k with
  | .mloop o x y z _ => .mloop o x y z b
  | .mdrain o d x c _ => .mdrain o d x c b
  | .mclr o _ => .mclr o b
  | k => k

/-- The answer of an errand that has been performed where it was sent: of a boundary's own effect, the party that performed it
has sent the reply to the partner barn as well (R224). -/
def Op.sentBack (o : Op) : Option (List RegWrite) :=
  match o.kind with
  | .answered => some o.result
  | .replied => some o.result
  | _ => none

/-- The reply that the partner barn holds for a group that has lost its stall (R224): for a boundary whose own effect has been
performed elsewhere and whose answer the group had still to take, that answer. -/
def Group.barnReply (g : Group) : Option (Word × List RegWrite) :=
  match g.heldReply with
  | some r => some r
  | none => (g.ops.findSome? Op.sentBack).map fun ws => (g.r.pc, ws)

/-- A group of a gang that has lost its stall: what is on its way and a section that is not complete are gone (R222, R224). -/
def Group.lose (g : Group) : Group :=
  { g with ops := [], wrote := [], ld := 0, st := 0, zlr := [], probing := false, stage42 := .none, blocked := none,
           sections := g.sections.filter fun x => x.done, heldReply := g.barnReply }

/-- Take a gang's GROOM commands out of the stables that hold them (R166, R223). -/
def State.dropGrooms (s : State) (gang : Nat) : State :=
  { s with stables := s.stables.map fun p =>
      (p.1, { p.2 with groomq := p.2.groomq.filter (fun c => c.gang != gang),
                       jobs := p.2.jobs.filter (fun j => j.cmd.gang != gang) }) }

/-- The banks of a stall that a gang holds. -/
def Stall.banksOf (st : Stall) (gang : Nat) : Nat := (st.banks.filter fun b => b.bound.any fun x => x.1 = gang).length

/-- A gang loses its stall: its commands, at every stable, are kept for the restart, unless it has been ended (R219, R223). The
cycles that it ran there count (R197). A tile-tree allocation at its home is not cut (R170), and the claims of others on tasks
parked there fail (R226). -/
def State.loseGang (s : State) (stall gang : Nat) : State :=
  let g := s.gang gang
  let st := s.stall stall
  let held := (s.gangCmds gang).map fun c => ({ c with running := false }, st.locks.filter fun l => l.cmd = c.id)
  let s := (s.linkWalks gang).failClaims gang
  let s := (s.groupsOf gang).foldl (fun s k => s.modGroup k Group.lose) (s.dropGrooms gang)
  let s := { s with groups := kerase s.groups (callableKey gang) }
  if g.phase = .ending then s
  else
    s.modGang gang fun g =>
      { g with phase := .lost, held := g.held ++ held
               cycles := g.cycles + (if g.live then s.gangCycles g else 0)
               banksHeld := if g.live then st.banksOf gang else g.banksHeld }

/-- The stall behind a logical number is lost with all it holds; what lies in its partner barn stays, the wakes of gangs imaged
out among it (R125, R142, R204, R221, R222). -/
def State.loseStall (s : State) (stall : Nat) : State :=
  let s := (kkeys (s.gangsOn stall)).foldl (fun s k => s.loseGang stall k) s
  let st := s.stall stall
  let s := s.setStall stall { Stall.fresh with
    spill := st.spill, commits := st.commits, wakes := st.wakes.filter fun k => (s.gang (gangOf k)).phase = .imaged
    dbg := st.dbg.map fun p => (p.1, { p.2 with atBrk := false }), cyc := 0 - s.cycles, lost := true }
  { s with
    owners := s.owners.filter fun p => p.2 != stall + 1
    poison := s.poison.filter fun p => !(scrKey stall 0 ≤ p.1 && p.1 < scrKey stall 262144) }

/-- A physical stall of a stable that is neither failed nor mapped, the lowest (R227). -/
def State.spareStall (s : State) (stable : Nat) : Option Nat :=
  let mapped := ((List.range 360).filter fun l => !(s.spare (360 * stable + l)).absent).map fun l =>
    (s.spare (360 * stable + l)).phys.toNat
  (List.range 384).find? fun p => !(s.stable stable).failed.getLsbD p && !mapped.contains p

/-- Change the hosting entries of the gangs that a stall hosts. -/
def State.modHosted (s : State) (stall : Nat) (f : Spare → Spare) : State :=
  (((s.gangs.map fun p => p.2.stall).eraseDups).filter fun t => (s.spare t).hosted && s.hostOf t = stall).foldl
    (fun s t => s.setSpare t (f (s.spare t))) s

/-- The commits for the gangs of a logical stall, and the wakes of those imaged out, go from the stall that stood behind it to
the one that does now (R204, R222, R227). -/
def State.moveWaiting (s : State) (own former now : Nat) : State :=
  if former = now then s
  else
    let st := s.stall former
    let mine := fun (c : Commit) => c.parts.any fun p => (s.gang? p.1).isSome && (s.gang p.1).stall = own
    let woken := fun (k : Nat) => (s.gang (gangOf k)).stall = own
    let s := s.setStall former
      { st with commits := st.commits.filter fun c => !mine c, wakes := st.wakes.filter fun k => !woken k }
    s.modStall now fun x =>
      { x with commits := x.commits ++ st.commits.filter mine, wakes := x.wakes ++ st.wakes.filter woken }

/-- Gangs hosted on a stall have no host any more: what waits for them waits at their own number. -/
def State.unhost (s : State) (stall : Nat) : State :=
  let own := ((s.gangs.map fun p => p.2.stall).eraseDups).filter fun t => (s.spare t).hosted && s.hostOf t = stall
  own.foldl (fun s t => s.moveWaiting t stall t) (s.modHosted stall fun e => { e with hosted := false })

/-- Gangs that have lost their stall and now have one begin to be restored (R222). -/
def State.beginRestore (s : State) (stall : Nat) : State :=
  { s with gangs := s.gangs.map fun p =>
      if p.2.phase = .lost && s.hostOf p.2.stall = stall then (p.1, { p.2 with phase := .restoring }) else p }

/-- R227: a spare takes the place of a lost stall, or the logical stall is absent and its gangs wait for a host. -/
def State.replaceStall (s : State) (stall : Nat) : State :=
  let e := s.spare stall
  let stable := stableOf stall
  let s := s.modStable stable fun x => { x with failed := x.failed ||| (1#384 <<< e.phys.toNat) }
  match s.spareStall stable with
  | some p =>
    let s := s.setSpare stall { e with phys := BitVec.ofNat 9 p, repl := true }
    let s := s.modHosted stall fun x => { x with hostPhys := BitVec.ofNat 9 p }
    let s := s.modStall stall fun st => { st with lost := false }
    let s := s.beginRestore stall
    s.appendEvent { Event.none with kind := 5, addr := e.phys.setWidth 64, stall := BitVec.ofNat 17 stall }
  | none => (s.unhost stall).setSpare stall { s.spare stall with absent := true }

/-- The loss of a stall whose stable lives (R227). -/
def State.stallLoss (s : State) (stall : Nat) : State := (s.loseStall stall).replaceStall stall

/-- STALL_ERROR_LOSS: an uncorrectable error in owned words, scratchpad or registers (R102, R221). -/
def execStallErrorLoss (stall : Nat) (s : State) : Host.Outcome State Fault Refusal :=
  when (s.stallPresent stall) s (s.stallLoss stall)

/-- STALL_CHECK_MISS: the stall has failed two successive checks (R221). -/
def execStallCheckMiss (stall : Nat) (s : State) : Host.Outcome State Fault Refusal :=
  when (s.stallPresent stall) s (s.stallLoss stall)

/-! ### The loss of a stable (R221, R228) -/

/-- The stalls of a stable that hold something, in ascending logical order. -/
def State.heldStalls (s : State) (stable : Nat) : List Nat :=
  (List.range 360).map (360 * stable + ·) |>.filter fun t =>
    ((kkeys s.stalls).contains t || !(s.gangsOn t).isEmpty) && s.stallPresent t

/-- Take the requests and the runs of callables for a stable's GROOM commands out of the stalls (R367). -/
def State.dropGroomRuns (s : State) (stable : Nat) : State :=
  let ofStable := fun (q : CallReq) => match q.who with | .groom x _ => x = stable | .group => false
  let runs := s.stalls.filterMap fun p => p.2.calling.bind fun q => if ofStable q then some (callableKey q.gang) else none
  let s := (kkeys s.stalls).foldl
    (fun s t => s.modStall t fun x =>
      { x with calls := x.calls.filter fun q => !ofStable q,
               calling := x.calling.bind fun q => if ofStable q then none else some q }) s
  { s with groups := s.groups.filter fun p => !runs.contains p.1 }

/-- The GROOM commands that gangs of other stables have at a lost one are issued again at the stable that stands in for it (R228,
log 70). -/
def State.moveGrooms (s : State) (stable : Nat) : State :=
  let sb := s.stable stable
  let cmds := sb.jobs.map GroomJob.cmd ++ sb.groomq
  let s := (s.dropGroomRuns stable).modStable stable fun x => { x with groomq := [], jobs := [] }
  cmds.foldl
    (fun s c => s.modStable (s.groomStable stable c.gang) fun x => { x with groomq := x.groomq ++ [{ c with running := false }] }) s

/-- A stable is lost: every logical stall that stands in it is absent, its gangs wait for hosts, as for stalls with no spare
(R227, R228), and its units' caches and queues are gone. -/
def State.loseStable (s : State) (stable : Nat) : State :=
  if (s.stable stable).lost then s
  else
    let s := (s.heldStalls stable).foldl (fun s t => (s.loseStall t).unhost t) s
    let spares := (List.range 360).map fun l =>
      let e := s.spare (360 * stable + l)
      (l, if e.absent then e else { e with absent := true })
    let s := s.modStable stable fun x => { x with lost := true, spares := spares, tlb := [], tiles := [] }
    (s.moveGrooms stable).appendEvent { Event.none with kind := 7, addr := BitVec.ofNat 64 stable }

/-! ### Hosting (R227) -/

/-- No stall of the same stable with a lower number could be hosted now: hosting goes in ascending logical order (R228). -/
def State.firstToHost (s : State) (stall : Nat) : Bool :=
  s.gangs.all fun p => stableOf p.2.stall ≠ stableOf stall || stall ≤ p.2.stall || (s.hostFor p.2.stall).isNone

/-- STALL_HOSTING: the gangs of an absent stall go together to the first stall that qualifies (R201, R227), with what waits for
them. -/
def execStallHosting (stall : Nat) (s : State) : Host.Outcome State Fault Refusal :=
  match (if s.firstToHost stall then s.hostFor stall else none) with
  | none => idle s
  | some h =>
    let hp := (s.spare h).phys
    let s := s.setSpare stall { s.spare stall with
      hosted := true, hostStable := BitVec.ofNat 9 (stableOf h), hostPhys := hp, host := h }
    let s := (s.moveWaiting stall stall h).beginRestore h
    happens (s.appendEvent { Event.none with
      kind := 6, addr := BitVec.ofNat 64 (stableOf h + hp.toNat * 2 ^ 16), stall := BitVec.ofNat 17 stall })

/-! ### Items (R425) -/

/-- Insert by a number. -/
def insertBy {α : Type} (f : α → Nat) (x : α) : List α → List α
  | [] => [x]
  | y :: ys => if f x ≤ f y then x :: y :: ys else y :: insertBy f x ys

/-- The recorded items of a gang that no group has taken, in credit order. -/
def Gang.untaken (g : Gang) (gang : Nat) : List Item :=
  g.intake.filterMap fun e =>
    match e.parcel, e.taker with
    | .item pc payload stage, none => some { pc := pc, payload := payload, gang := gang, stage := stage, seq := e.seq }
    | _, _ => none

/-- Place back the untaken items that stand nowhere: in the queue, the bins and the spill areas behind the stall they stay where
they are (R425). They go into the queue in credit order, ahead of items credited later. DESIGN CHOICE (log 72): the spec gives
the queue 256 places (R142) and lets up to 512 items come back to it, and the queue then holds them all; it takes no other item
until it is below 256 again. -/
def State.placeBack (s : State) (stall gang : Nat) : State :=
  let st := s.stall stall
  let kept := (st.itemq ++ s.spilled stall ++ (s.stall (s.gang gang).stall).spill ++ st.bins.flatMap fun b => b.2.items).map
    Item.seq
  let back := ((s.gang gang).untaken gang).filter fun i => !kept.contains i.seq
  s.setStall stall { st with itemq := back.foldl (fun q i => insertBy Item.seq i q) st.itemq }

/-! ### Re-placement of a gang imaged out (R204) -/

/-- The banks that a gang is rebound to are free (R332). -/
def State.banksFree (s : State) (stall gang : Nat) : Bool := s.bankNeed gang ≤ s.freeBanks stall

/-- Load an image into the first free bank. -/
def Stall.loadBank (st : Stall) (b : Bank) : Stall :=
  match st.banks.findIdx? fun x => x.bound.isNone with
  | some i => { st with banks := st.banks.set i b }
  | none => st

/-- The conditions of R200 at the gang's former stall and SCRBASE. -/
def State.canReplace (s : State) (gang : Nat) : Bool :=
  let g := s.gang gang
  let l := s.launch (lidOf gang)
  let stall := s.runsOn gang
  s.replaceWaits gang && s.stallUp stall && s.roomForGang stall l.groupCount l.regCount &&
  s.baseFree stall g.scrbase g.scrsize && s.banksFree stall gang

/-- Write an allocation's image, and the poison marks of it, into a stall's scratchpad (R102, R180). -/
def State.loadImage (s : State) (stall : Nat) (g : Gang) : State :=
  let cells := (g.allocImage.getD []).map fun c => (g.scrbase + c.1, c.2)
  let s := s.modStall stall fun st => { st with scratch := cells.foldl (fun m c => m.write c.1 c.2) st.scratch }
  g.imagePoison.foldl (fun s a => s.scrMark stall (g.scrbase + a)) s

/-- Entries of a gang's logs have still to be used up in replay (R225). -/
def State.replaysStill (s : State) (gang : Nat) : Bool :=
  !(s.gang gang).toApply.isEmpty || (s.groupsOf gang).any fun k => (s.group k).standing ≠ .exited && !(s.group k).replay.isEmpty

/-- GANG_REPLACEMENT: the allocation is restored before the gang's first wake, items lost with a stall are placed back, the
stall's accesses for the gang begin with an acquire, its cycles count again, and a replay that the request interrupted goes on
(R128, R197, R204, R209, R222, R425). DESIGN CHOICE (log 85): it is not the placement of R285, and the lines that the stall
holds stay; nor is the hosting of R227. -/
def execGangReplacement (gang : Nat) (s : State) : Host.Outcome State Fault Refusal :=
  let g := s.gang gang
  let stall := s.runsOn gang
  let s' := (s.zeroAlloc stall g.scrbase g.scrsize).loadImage stall g
  let s' := s'.modStall stall fun st => g.bankImages.foldl (fun st b => st.loadBank b.2) st
  let s' := s'.modGang gang fun g =>
    { g with allocImage := none, imagePoison := [], phase := if s.replaysStill gang then .replay else .running,
             placedAt := s.ptime }
  when (s.canReplace gang) s ((s'.placeBack stall gang).acquireAt stall)

/-! ### Restoring (R223) -/

/-- RIC at which a restarted group begins. -/
def Group.baseRic (g : Group) : Nat := (g.lastSection.map fun x => x.ric.toNat).getD 0

/-- An entry of an engine operation issued by the sections' time. -/
def Effect.early (e : Effect) (base : Nat) : Bool := e.kind = 4 && e.ric.toNat ≤ base

/-- Batches closed by a section and not complete in it, with the commands of theirs that are outstanding (R87, R154); the image
at a batch's completion comes after the last of its commands (R333). -/
def openBatches (cmds logged : List Cmd) : Nat → BitVec 16 → List Batch
  | 0, _ => []
  | n + 1, k =>
    let ids := fun (cs : List Cmd) => (cs.filter fun c => c.batch = k).map Cmd.id
    { number := k, cmds := ids cmds, mark := ((ids (cmds ++ logged)).map fun i => i + 1).foldl max 0 } ::
      openBatches cmds logged n (k + 1)

/-- A group as its section or start state gives it, with the commands of its own that are outstanding (R87, R223). Its log is in
the order of RIC, into which an operation performed again in an earlier replay falls (R225); a claim that it has made stands, and
replay brings it back to the instruction (R224). -/
def Group.restart (g : Group) (cmds : List Cmd) (gbarDone : Nat) : Group :=
  let base := g.baseRic
  let r := match g.lastSection with | some x => x.regs | none => g.start
  let plane := cmds.filter fun c => c.kind.plane && (match c.kind with | .mclr .. => false | _ => true)
  let carts := cmds.filter fun c => !c.kind.plane
  let closed := (r.batchOpen - 1 - r.batchDone).toNat
  let cut := fun (e : Effect) => e.kind = 4 && !e.complete && base < e.ric.toNat
  let effects := (g.effects.filter fun e => !cut e).foldr (insertBy fun e => e.ric.toNat) []
  let logged := (effects.filterMap fun e => e.cmd).filter fun c => c.kind.plane
  { g with
    r := { r with serial := false }
    ric := BitVec.ofNat 64 base
    frames := match g.lastSection with | some x => x.frames | none => []
    effects := effects
    replay := effects.filter fun e => base < e.ric.toNat
    dropped := (g.effects.filter cut).map Effect.ric
    ld := 0, st := 0, cp := carts.length, tl := plane.length, ops := [], deliveries := [], tasks := []
    openCmds := (plane.filter fun c => c.batch = r.batchOpen).map Cmd.id
    batches := openBatches plane logged (min closed 8) (r.batchDone + 1)
    standing := .slot, blocked := none, incomplete := none, waitSince := none, zlr := [], probing := false, deny := none
    storeFault := none, pairFirst := false, pairSecond := false, before := none, streak := 0
    transferFrom := if g.lastSection.isSome then none else some 0, walk := none
    stage42 := if g.lastSection.isSome && g.gbars = gbarDone + 1 then .gbar else .none }

/-- Insert a saved image among images in order of time, ties in order of group number. -/
def insertImage (x : Nat × Nat × List (Nat × List Byte)) :
    List (Nat × Nat × List (Nat × List Byte)) → List (Nat × Nat × List (Nat × List Byte))
  | [] => [x]
  | y :: ys => if x.1 < y.1 || (x.1 = y.1 && x.2.1 ≤ y.2.1) then x :: y :: ys else y :: insertImage x ys

/-- The carry-range images of a gang, the latest last, those of exited groups among them (R44, R179). -/
def State.carryImages (s : State) (gang : Nat) : List (Nat × List Byte) :=
  let xs := (s.groupsOf gang).filterMap fun k =>
    (s.group k).lastSection.map fun x => (x.time.toNat, numberOf k, x.ranges)
  (((s.gang gang).carries ++ xs).foldl (fun l x => insertImage x l) []).flatMap fun x => x.2.2

/-- Each group of a gang has retired the instructions that a stamp names (R181); groups gone or exited count as having. -/
def State.stampMet (s : State) (gang : Nat) (stamp : List Word) (ric : Group → Nat) : Bool :=
  (List.range 16).all fun n =>
    match s.group? (groupKey gang n) with
    | some g => g.standing = .exited || (stamp.getD n 0).toNat ≤ ric g
    | none => true

/-- Apply an intake entry of kind 1, 2 or 4 again (R181, R223). -/
def State.applyIntake (s : State) (gang : Nat) (e : Intake) : State :=
  let base := (s.gang gang).scrbase
  match e.parcel with
  | .bytes _ off bs => s.allocWrite gang (off - base) bs
  | .count _ off n => s.allocObject gang (off - base) n
  | .mailbox off bs => s.allocWrite gang (off - base) bs
  | _ => s

/-- Apply entries while their stamps have been reached; the rest waits for replay (R225). -/
def State.applyDue (s : State) (gang : Nat) (ric : Group → Nat) : List Intake → State × List Intake
  | [] => (s, [])
  | e :: es => if s.stampMet gang e.stamp ric then (s.applyIntake gang e).applyDue gang ric es else (s, e :: es)

/-- The bank of a gang's logical number on a stall, bound if it is not; the restart has waited until the banks it needs are
free (R332). -/
def State.bankFor (s : State) (stall gang logical : Nat) : Option (State × Nat) :=
  match (s.stall stall).bankOf gang logical with
  | some b => some (s, b)
  | none =>
    ((s.stall stall).banks.findIdx? fun b => b.bound.isNone).map fun b =>
      (s.modStall stall fun st => { st with banks := st.banks.set b { Bank.fresh with bound := some (gang, logical) } }, b)

/-- A command whose completion is logged acts on its bank again (R333). -/
def State.runBank (s : State) (stall gang : Nat) (c : Cmd) : State :=
  match s.bankFor stall gang c.kind.logical with
  | none => s
  | some p =>
    match c.kind with
    | .mloop o a b k _ => p.1.runMloop stall gang o a b k p.2
    | .mdrain o .. => p.1.drainEnd stall p.2 o
    | .mclr o _ => p.1.runMclr stall p.2 o.free
    | _ => s

/-- A cart that bales writes BALEST at its completion (R340); BALE writes it at its issue (R339), and the boundary since then has
zeroed it (R85). -/
def CmdKind.statusAtEnd (k : CmdKind) : Bool :=
  match k with
  | .cart _ => true
  | _ => false

/-- The log supplies the completion of an operation that was outstanding at the section (R87, R223). -/
def State.supply (s : State) (stall gang grp : Nat) (e : Effect) : State :=
  let s := e.bytes.foldl (fun s c => s.allocWrite gang c.1 [c.2]) s
  match e.cmd with
  | none => s
  | some c =>
    let s := if c.kind.statusAtEnd then s.modGroup grp fun g => { g with r := g.r.baled e.bale } else s
    let s := s.setTag gang c.tag
    if c.kind.plane && !(s.gang gang).covered c.id then (s.runBank stall gang c).noteActed gang c.id else s

/-- Enter a command again in its engine's queue, with its intervals (R173, R223). -/
def State.reissue (s : State) (stall gang : Nat) (c : Cmd) (locks : List Lock) : State :=
  let s := s.modStall stall fun st => { st with locks := st.locks ++ locks }
  match c.kind with
  | .groom d .. =>
    let owner := tileOwner (s.tileEntry (stableOf stall) (gmTx d) (gmTy d))
    s.modStable (s.groomStable owner gang) fun x => { x with groomq := x.groomq ++ [c] }
  | .mloop .. | .mdrain .. | .mclr .. =>
    match s.bankFor stall gang c.kind.logical with
    | some p => p.1.modStall stall fun st => { st with planeq := st.planeq ++ [{ c with kind := c.kind.onBank p.2 }] }
    | none => s
  | _ => s.modStall stall fun st => { st with cartq := st.cartq ++ [c] }

/-- What the restart does for the operations outstanding at the sections, in order of issue: a logged completion is
supplied, any other operation is issued again. -/
inductive Redo where
  | logged (grp : Nat) (e : Effect)
  | again (c : Cmd) (locks : List Lock)
  deriving DecidableEq, Repr

def Redo.id : Redo → Nat
  | .logged _ e => (e.cmd.map Cmd.id).getD 0
  | .again c _ => c.id

/-- A command of a gang issued by its sections' time; one that another gang's group counts, by an adoption, was (R187, R386). -/
def State.issuedBefore (s : State) (gang grp : Nat) (ric : Word) : Bool :=
  gangOf grp ≠ gang || ric.toNat ≤ (s.group grp).baseRic

/-- The commands of a lost gang that were issued by its sections' time. -/
def State.outstanding (s : State) (gang : Nat) : List (Cmd × List Lock) :=
  (s.gang gang).held.filter fun h => s.issuedBefore gang h.1.grp h.1.ric

/-- Commands of other gangs that a group counts, queued or running or held for their own gang's restart. -/
def State.cmdsElsewhere (s : State) (grp : Nat) : List Cmd :=
  (s.gangs.flatMap fun p => s.gangCmds p.1 ++ p.2.held.map Prod.fst).filter fun c => c.grp = grp && c.gang ≠ gangOf grp

def State.redos (s : State) (gang : Nat) : List Redo :=
  let logged := s.groups.flatMap fun p =>
    (p.2.effects.filter fun e =>
      e.kind = 4 && e.complete && (e.cmd.any fun c => c.gang = gang) && s.issuedBefore gang p.1 e.ric).map
        fun e => Redo.logged p.1 e
  let again := (s.outstanding gang).map fun h => Redo.again h.1 h.2
  (logged ++ again).foldl (fun l x => insertBy Redo.id x l) []

/-- The tags that a restarted gang begins with: those of its groups' sections together (R43, log 20), less those of operations
outstanding at the sections, which the log or a new issue sets (R87, R189). -/
def State.sectionTags (s : State) (gang : Nat) : Word :=
  let all := (s.groupsOf gang).foldl (fun t k => t ||| ((s.group k).lastSection.map fun x => x.tags).getD 0) 0
  (s.outstanding gang).foldl (fun t h => match h.1.tag with | some n => t &&& ~~~(1#64 <<< n) | none => t) all

/-- The record that a restarted group has claimed names its new slot (R174, R224). -/
def State.reclaim (s : State) (grp : Nat) : State :=
  match (s.group grp).claim with
  | none => s
  | some (task, _) =>
    match s.structLoc (s.runsOn (gangOf grp)) task 128 with
    | none => s
    | some rec' => s.setWordAt rec' 10 (rWord (s.gang (gangOf grp)).stall (s.group grp).slot)

/-- Task records that name the gang's stall read running again, with the new place (R223); no wait of theirs stands (R176). -/
def State.reclaimTasks (s : State) (grp : Nat) : State :=
  let s := s.reclaim grp
  let stall := (s.gang (gangOf grp)).stall
  let g := s.group grp
  g.tasksOf.foldl
    (fun s t =>
      match s.structLoc (s.runsOn (gangOf grp)) t.1 128 with
      | none => s
      | some rec' =>
        let st := recState (s.wordAt rec' 3)
        if (st = 1 || st = 2) && ((s.wordAt rec' 10).extractLsb' 16 17).toNat = stall then
          (((s.setRecord rec' 1 0).setWordAt rec' 9 0).setWordAt rec' 10 (rWord stall g.slot)).endAwait rec'
        else s) s

/-- Put a restarting group in a slot, its own if that is free. A debugger goes with a group that held its slot when the stall was
lost, and ends the step of one that had parked in it (R226, R232, log 71). -/
def State.reslot (s : State) (stall grp : Nat) (held : Bool) : State :=
  let old := (s.group grp).slot
  let taken := (s.standing stall .slot).any fun p => p.1 ≠ grp && p.2.slot = old
  let slot := if taken then s.freeSlot stall grp else old
  let s := s.modGroup grp fun g => { g with slot := slot }
  let s := s.modStall stall fun st => { st with ages := (st.ages.filter (· != grp)) ++ [grp] }
  (if (s.group grp).stepping then s.endStep grp old else if held then s.moveDbg grp old else s).noteSlots (gangOf grp)

/-- What restoring waits for: slots and registers for every group, range-lock entries, and banks (R223, R332). -/
def State.canRestore (s : State) (stall gang : Nat) : Bool :=
  let ks := s.restartGroups gang
  let more := ks.filter fun k => (s.group k).standing != .slot
  let locks := ((s.outstanding gang).map fun h => h.2.length).sum
  s.usedSlots stall + more.length ≤ 16 && s.usedRegs stall + (more.map fun k => (s.group k).vbudget).sum ≤ 512 &&
  (s.stall stall).locks.length + locks ≤ 16 && s.banksFree stall gang

/-- The gangs that wait to be restored on a stall are restored in the order in which they were placed (R223). -/
def State.firstToRestore (s : State) (stall gang : Nat) : Bool :=
  (s.gangsOn stall).all fun p => p.2.phase != .restoring || (s.gang gang).order ≤ p.2.order

/-- The steps of R223. -/
def State.restoreGang (s : State) (stall gang : Nat) : State :=
  let g := s.gang gang
  let redo := s.redos gang
  let mine := fun (k : Nat) => (((s.outstanding gang).map Prod.fst).filter fun c => c.grp = k) ++ s.cmdsElsewhere k
  let tags := s.sectionTags gang
  let images := s.carryImages gang
  let ks := s.restartGroups gang
  let s' := s.zeroAlloc stall g.scrbase g.scrsize
  let s' := (images ++ g.receiveImage).foldl (fun s x => s.allocWrite gang x.1 x.2) s'
  let p := s'.applyDue gang Group.baseRic (g.intake.filter fun e => !e.parcel.isItem && !e.imaged)
  let s' := p.1.placeBack stall gang
  let s' := ks.foldl (fun s k => s.modGroup k fun x => x.restart (mine k) g.gbarDone) s'
  let s' := ks.foldl (fun s' k => s'.reslot stall k ((s.group k).standing = .slot)) s'
  let s' := s'.modStall stall fun st =>
    (g.bankImages.foldl (fun (st : Stall) b => st.loadBank b.2) st)
  let s' := s'.modGang gang fun x =>
    { x with phase := .replay, toApply := p.2, tags := tags, held := [], acted := x.covers, imageDue := [], banksHeld := 0
             placedAt := s.ptime }
  let s' := redo.foldl
    (fun s x =>
      match x with
      | .logged k e => s.supply stall gang k e
      | .again c ls => s.reissue stall gang c ls) s'
  let s' := ks.foldl (fun s k => s.modGroup k Group.settleBatches) s'
  (ks.foldl (fun s k => s.reclaimTasks k) s').acquireAt stall

/-! ### The end of replay (R222, R225) -/

/-- The gang has used up its logs. -/
def State.replayed (s : State) (gang : Nat) : Bool :=
  (s.gang gang).toApply.isEmpty && (s.groupsOf gang).all fun k => (s.group k).standing = .exited || (s.group k).replay.isEmpty

/-- Apply what has fallen due, and leave replay when the logs are used up. -/
def State.advanceReplay (s : State) (gang : Nat) : State :=
  if (s.gang gang).phase = .replay then
    let p := s.applyDue gang (fun g => g.ric.toNat) (s.gang gang).toApply
    let s := p.1.modGang gang fun g => { g with toApply := p.2 }
    if s.replayed gang then s.modGang gang Gang.endReplay else s
  else s

/-- A group in replay waits before the instruction that follows an entry's stamp until the entry has been applied. -/
def State.replayWaits (s : State) (grp : Nat) : Bool :=
  match (s.gang (gangOf grp)).toApply with
  | [] => false
  | e :: _ => (e.stamp.getD (numberOf grp) 0).toNat ≤ (s.group grp).ric.toNat

/-- GANG_RESTORE (R223). -/
def execGangRestore (gang : Nat) (s : State) : Host.Outcome State Fault Refusal :=
  let stall := s.runsOn gang
  if (s.gang gang).phase != .restoring || !s.firstToRestore stall gang then idle s
  else if s.recordsDead gang then
    happens (s.endGang gang Cause.poison.code 0 ((s.restartGroups gang).headD (groupKey gang 0)))
  else when (s.canRestore stall gang) s ((s.restoreGang stall gang).advanceReplay gang)

end Sys2Proof.Machine
end

