-- ==== Sys2Proof/Machine/Failures.lean ====
section
/-!
DEFINITION. Failures beyond a stall: accesses to a home that fails (R108, R247, R248), changes of owner (R239, R240), the
loss of barns and their movement (R103, R229), die links and the fabric (R230), corrected and uncorrectable errors
(R102, R194, R231), panel links (R246, R247).
-/

namespace Sys2Proof.Machine

/-! ### Accesses whose home fails (R247) -/

/-- The accesses of a load that still wait for an answer of a failed home. -/
def Op.cutAccs (o : Op) (bad : Nat → Bool) : List Acc :=
  match o.kind with
  | .load =>
    if o.performed then []
    else ((o.unread (List.range o.accs.length)).filterMap fun i => o.accs[i]?).filter fun a => bad a.loc
  | _ => []

/-- The cause that a group's next issue takes, once further accesses have been cut off: POISON for the lanes of all of them, at
the lowest one's address. -/
def joinPoison (old : Option (Cause × BitVec 32 × Word)) : List Acc → Option (Cause × BitVec 32 × Word)
  | [] => old
  | a :: rest =>
    let low := rest.foldl (fun x y => if y.lane < x.lane then y else x) a
    let lanes := maskOf ((a :: rest).map Acc.lane)
    match old with
    | some (.poison, more, va) =>
      some (.poison, lanes ||| more, if more &&& maskOf (List.range low.lane) = 0 then low.va else va)
    | _ => some (.poison, lanes, low.va)

/-- One operation after its home has failed: a load is performed with no result, a store keeps its other bytes. -/
def Op.failAt (bad : Nat → Bool) (o : Op) : Op :=
  match o.kind with
  | .load => if (o.cutAccs bad).isEmpty then o else { o with performed := true, result := [] }
  | .store p q => { o with kind := .store (p.filter fun c => !bad c.1) (q.filter fun c => !bad c.1) }
  | _ => o

/-- A group after a home has failed: POISON for the lanes of all its loads there at its next issue, and for its stores at its next
release. -/
def Group.failAt (g : Group) (bad : Nat → Bool) (ports : List Nat) : Group :=
  let stores := g.ops.filter fun o => o.pendingCells.any fun c => bad c.1
  let va := (stores.findSome? fun o => (o.accs.find? fun a => bad a.loc).map Acc.va).getD 0
  let cut := g.zlr.any fun p => ports.contains p
  { g with
    ops := g.ops.map (Op.failAt bad)
    zlr := g.zlr.filter fun p => !ports.contains p
    deny := joinPoison g.deny (g.ops.flatMap fun o => o.cutAccs bad)
    storeFault := if !stores.isEmpty || cut then some (g.storeFault.getD va) else g.storeFault }

/-- A running command after a home has failed: its requests there are outstanding, and none is answered (R247). -/
def Cmd.failAt (bad : Nat → Bool) (c : Cmd) : Cmd :=
  if c.running then { c with pages := c.pages.map fun p => if bad p.2 then (p.1, foreignLoc cutHome p.2) else p } else c

def Stall.failAt (bad : Nat → Bool) (st : Stall) : Stall := { st with cartq := st.cartq.map (Cmd.failAt bad) }

/-- Every request outstanding at some homes is answered with an error (R247, R248). -/
def State.failHomes (s : State) (bad : Nat → Bool) (ports : List Nat) : State :=
  { s with
    groups := s.groups.map fun p => (p.1, p.2.failAt bad ports)
    stalls := s.stalls.map fun p => (p.1, p.2.failAt bad) }

/-- A panel link goes down (R247). -/
def State.dropLink (s : State) (l : Nat) : State :=
  (s.setLink l { s.link l with up := false }).failHomes (fun loc => homeOfLoc loc = 0x10 + l) []

/-- A host port's link goes down (R248). -/
def State.dropPort (s : State) (p : Nat) : State :=
  (s.setPort p { s.port p with link := false }).failHomes (fun loc => homeOfLoc loc = p + 1) [p]

/-! ### Changes of owner (R239, R240) -/

/-- Every change raises EPOCH, withdraws the offer, and is told on every port whose link is up. -/
def State.changeOwner (s : State) (o : Owner) : State :=
  let s := { s with own := { o with hreq := false, epoch := s.own.epoch + 1 } }
  (List.range 4).foldl (fun s p => if (s.port p).link then s.msix p 1 else s) s

/-- Ownership is given up. -/
def State.disown (s : State) : State := s.changeOwner { s.own with owned := false }

/-- The owner's rights are with a port. -/
def State.owns (s : State) (port : Nat) : Bool := s.own.owned && s.own.owner.toNat = port

def State.disownIf (s : State) (port : Nat) : State := if s.owns port then s.disown else s

/-! ### Barns (R103, R229) -/

/-- The data under a key of the poison list went with their barn. -/
def State.deadKey (s : State) (key : Nat) : Bool :=
  if 2 ^ 63 ≤ key then (s.barn ((key - 2 ^ 63) / 2 ^ 32)).dead else s.deadAt key

/-- Write a barn; poison marked alone that its fate now covers, or no longer covers, is dropped from the list. -/
def State.setFate (s : State) (b : Nat) (x : Barn) : State :=
  let s' := s.setBarn b x
  { s' with poison := s.poison.filter fun p => s.deadKey p.1 = s'.deadKey p.1 }

/-- The lost barns of a barn's ring. -/
def State.lostInRing (s : State) (b : Nat) : List Nat := (ringOthers b).filter fun x => (s.barn x).lost

/-- The physical address of the first line that goes with a barn: its own, or one moved there. -/
def State.firstPoisoned (s : State) (b : Nat) : Nat :=
  let moved := (s.lostInRing b).filter fun x => (s.barn x).moved && (ringOthers x).head? = some b
  (moved.foldl min b) * 0x10000

/-- The lines of a barn are beyond rebuilding: one event (R231). -/
def State.killBarn (s : State) (b : Nat) : State :=
  if (s.barn b).dead then s
  else
    let addr := s.firstPoisoned b
    let s := s.setFate b { s.barn b with dead := true }
    s.appendEvent { Event.none with kind := 11, addr := BitVec.ofNat 64 addr }

/-- The data of a lost barn: rebuilt from its ring, moved when there is room, or beyond rebuilding (R103, R229). -/
def State.ringLoss (s : State) (b : Nat) : State :=
  let others := s.lostInRing b
  if others.isEmpty then
    if s.cfg.lp.toNat < 64 then s.appendEvent { Event.none with kind := 10, addr := BitVec.ofNat 64 (b / 8) } else s
  else ((others.filter fun x => !(s.barn x).moved) ++ [b]).foldl State.killBarn s

/-- The host ports and panel links of a barn are down, and its port no longer owns the panel (R240, R247, R248). -/
def State.dropEdges (s : State) (b : Nat) : State :=
  let ports := (List.range 4).filter fun p => portBarn p = b
  let links := (List.range 48).filter fun l => linkBarn l = b && (s.link l).up
  let s := ports.foldl (fun s p => (s.dropPort p).disownIf p) s
  links.foldl State.dropLink s

/-- The four directions of a die's links (R218): +col, −col, +row, −row. -/
def stepDir (p : Nat × Nat) (d : Nat) : Option (Nat × Nat) :=
  match d with
  | 0 => if p.1 < 23 then some (p.1 + 1, p.2) else none
  | 1 => if 0 < p.1 then some (p.1 - 1, p.2) else none
  | 2 => if p.2 < 23 then some (p.1, p.2 + 1) else none
  | _ => if 0 < p.2 then some (p.1, p.2 - 1) else none

/-- The homes of a lost barn move: the lines of its slices that hold owned words are registered in the directories of the new
homes (R125, R229). -/
def State.loseSlices (s : State) (b : Nat) : State :=
  let x := s.barn b
  let tags := (x.l2.flatMap fun p => (p.2.filter fun y => !y.loft).map HomeLine.tag) ++ x.dir.flatMap fun p => p.2
  let s := s.setBarn b { x with l2 := [], dir := [] }
  (tags.filter fun t => !(s.ownedWords t).isEmpty).foldl (fun s t => s.enterDir (s.homeBarn (t * 64)) (sliceOf (t * 64)) t) s

/-- BARN_LOSS of a barn that stands (R229). -/
def State.loseBarn (s : State) (b : Nat) : State :=
  if (s.barn b).lost then s
  else
    let s := s.setBarn b { s.barn b with lost := true }
    let s := s.appendEvent { Event.none with kind := 8, addr := BitVec.ofNat 64 b }
    let mine := ((List.range 4).filter fun d => (stepDir (barnPos b) d).isSome).map fun d => (b, d)
    let s := { s with deadLinks := (s.deadLinks ++ mine).eraseDups }
    ((s.loseSlices b).dropEdges b).ringLoss b

/-! ### The fabric (R230) -/

/-- A position of the grid holds a barn (R12). -/
def isBarnPos (p : Nat × Nat) : Bool := (p.1 + p.2) % 2 = 1

def State.dieLost (s : State) (p : Nat × Nat) : Bool :=
  if isBarnPos p then (s.barn (dieAt p.1 p.2)).lost else (s.stable (dieAt p.1 p.2)).lost

/-- The link of a die in a direction is listed under its barn. -/
def linkName (p q : Nat × Nat) (d : Nat) : Nat × Nat :=
  if isBarnPos p then (dieAt p.1 p.2, d) else (dieAt q.1 q.2, if d % 2 = 0 then d + 1 else d - 1)

/-- The die reached from a position over a working link. -/
def State.overLink (s : State) (p : Nat × Nat) (d : Nat) : Option (Nat × Nat) :=
  match stepDir p d with
  | none => none
  | some q => if s.deadLinks.contains (linkName p q d) || s.dieLost q then none else some q

/-- The working neighbours of a die. -/
def State.neighbours (s : State) (p : Nat × Nat) : List (Nat × Nat) := (List.range 4).filterMap (s.overLink p)

/-- The dies reached from some dies, in at most n rounds. -/
def State.reach (s : State) : Nat → List (Nat × Nat) → List (Nat × Nat) → List (Nat × Nat)
  | 0, seen, _ => seen
  | n + 1, seen, front =>
    let new := (front.flatMap s.neighbours).eraseDups.filter fun q => !seen.contains q
    if new.isEmpty then seen else s.reach n (seen ++ new) new

def gridDies : List (Nat × Nat) := (List.range 24).flatMap fun r => (List.range 24).map fun c => (c, r)

/-- The dies that a failure takes: those with no working link, and those cut off from the owner's port. While no port owns the
panel no part holds the owner's port, and no die is lost for being cut off (DESIGN CHOICE, log 73; unsafe). -/
def State.strandedDies (s : State) : List (Nat × Nat) :=
  let home : List (Nat × Nat) :=
    if s.own.owned then
      let p := barnPos (portBarn s.own.owner.toNat)
      s.reach 576 [p] [p]
    else gridDies
  gridDies.filter fun p => !s.dieLost p && ((s.neighbours p).isEmpty || !home.contains p)

def State.loseDie (s : State) (p : Nat × Nat) : State :=
  if isBarnPos p then s.loseBarn (dieAt p.1 p.2) else s.loseStable (dieAt p.1 p.2)

/-- Dies are lost until every die that stands is reached. -/
def State.settleFabric : Nat → State → State
  | 0, s => s
  | n + 1, s =>
    let lost := s.strandedDies
    if lost.isEmpty then s else State.settleFabric n (lost.foldl State.loseDie s)

/-- STABLE_CHECK_MISS: the stable is lost with its die, and the fabric is looked at again (R221, R228, R230). -/
def execStableCheckMiss (stable : Nat) (s : State) : Host.Outcome State Fault Refusal :=
  when (stable < 288 && !(s.stable stable).lost) s ((s.loseStable stable).settleFabric 576)

/-- BARN_LOSS. -/
def execBarnLoss (barn : Nat) (s : State) : Host.Outcome State Fault Refusal :=
  when (barn < 288 && !(s.barn barn).lost) s ((s.loseBarn barn).settleFabric 576)

/-- BARN_MOVE_COMPLETE: the firmware has moved a lost barn's lines into the survivors' parity cells (R229). -/
def execBarnMoveComplete (barn : Nat) (s : State) : Host.Outcome State Fault Refusal :=
  let b := s.barn barn
  let s' := s.setFate barn { b with moved := true }
  when (barn < 288 && b.lost && !b.moved && !b.dead && 64 ≤ s.cfg.lp.toNat && (s.lostInRing barn).isEmpty) s
    (s'.appendEvent { Event.none with kind := 10, addr := BitVec.ofNat 64 (barn / 8 + 256) })

/-- DIE_LINK_FAILURE (R230). -/
def execDieLinkFailure (barn dir : Nat) (s : State) : Host.Outcome State Fault Refusal :=
  let s' := { s with deadLinks := s.deadLinks ++ [(barn, dir)] }
  let s' := s'.appendEvent { Event.none with kind := 9, addr := BitVec.ofNat 64 (barn + dir * 2 ^ 16) }
  when (barn < 288 && dir < 4 && (stepDir (barnPos barn) dir).isSome && !s.deadLinks.contains (barn, dir)) s
    (s'.settleFabric 576)

/-! ### Errors in stored data (R102, R194, R231) -/

/-- A saturating counter of corrected errors. -/
def satInc (x : BitVec 32) : BitVec 32 := if x = BitVec.allOnes 32 then x else x + 1

def State.bumpCe (s : State) (cls : CeClass) (place : Nat) (f : BitVec 32 → BitVec 32) : State :=
  let b := s.barn place
  match cls with
  | .sram => s.modStable place fun x => { x with cesram := f x.cesram }
  | .fetch => s.modStable place fun x => { x with cefetch := f x.cefetch }
  | .l2 => s.setBarn place { b with cel2 := f b.cel2 }
  | .dram => s.setBarn place { b with cedram := f b.cedram }
  | .link => s.setBarn place { b with celink := f b.celink }

/-- ECC_CORRECTED (R102, R194). -/
def execEccCorrected (cls : CeClass) (place : Nat) (s : State) : Host.Outcome State Fault Refusal :=
  when (place < 288) s (s.bumpCe cls place satInc)

/-- A line of a barn's stack is rebuilt from its ring while the ring has its parity (R102, R103). -/
def State.ringWhole (s : State) (b : Nat) : Bool := !(s.barn b).lost && (s.lostInRing b).isEmpty

/-- The 64-byte line of a location is marked poisoned; one event when it was not (R231), with its address. -/
def State.poisonLine (s : State) (pa : Nat) : State :=
  let line := pa / 64 * 64
  if (List.range 64).all fun i => s.poisoned (line + i) then s
  else
    let s := (List.range 64).foldl (fun s i => s.markPoison (line + i)) s
    s.appendEvent { Event.none with kind := 11, addr := BitVec.ofNat 64 line }

/-- The 64-byte line at an offset of a barn's loft partition is marked poisoned; one event when it was not (R231). The event's
ADDR is 0: such data have no physical address (log 73). -/
def State.poisonLoft (s : State) (barn p : Nat) : State :=
  let keys := (List.range 8).map fun i => loftKey barn (p / 64 * 64 + 8 * i)
  if keys.all fun k => s.cellsBad k barn then s
  else
    let s := { s with poison := keys.foldl (fun m k => kset false m k (!(s.barn barn).dead)) s.poison }
    s.appendEvent { Event.none with kind := 11 }

/-- Another domain holds a good copy of a line of a barn's loft partition (R104). -/
def State.loftElsewhere (s : State) (b p : Nat) : Bool :=
  let k := s.loftSide
  (List.range (24 / k * (24 / k))).any fun d =>
    let c := (domainBarns k d).getD (domainPlace k b) 0
    c != b && !(s.barn c).lost && (List.range 8).all fun i => !s.cellsBad (loftKey c (p / 64 * 64 + 8 * i)) c

/-- The line at a stack offset of a barn cannot be rebuilt from its ring (R102, R231). The home slices' ways hold what the
shadow holds (R106); a record's place in its area is not given, and the error of a record names its gang. -/
def State.poisonStack (s : State) (b x : Nat) : State :=
  match s.stackCell b x with
  | .general pa => s.poisonLine pa
  | .loft p => if s.loftElsewhere b p then s else s.poisonLoft b p
  | .shadow _ | .record _ => s

/-- The line at a stack offset of a barn fails its code: it is rebuilt from its ring (R103); in a ring that has lost its
redundancy it is beyond rebuilding, and so is the line of a lost barn that would have been rebuilt from it. -/
def State.failLine (s : State) (b x : Nat) : State :=
  if s.ringWhole b then s
  else (b :: (s.lostInRing b).filter fun c => !(s.barn c).moved).foldl (fun s c => s.poisonStack c (x / 64 * 64)) s

/-- A record of a gang is beyond rebuilding (R231). -/
def State.loseRecord (s : State) (gang : Nat) : State :=
  if (s.gang gang).recordBad then s
  else (s.modGang gang fun g => { g with recordBad := true }).appendEvent { Event.none with kind := 11 }

/-- A clean 32-byte sector of an L1 line is discarded and read again by its next use; owned words are no clean data (R102). -/
def Line.discard (l : Line) (sector : Nat) : Line :=
  { l with valid := l.valid &&& if sector = 0 then 0xFF00 else 0x00FF }
def Stall.discard (st : Stall) (loft : Bool) (tag sector : Nat) : Stall :=
  { st with l1 := st.l1.map fun l => if l.loft = loft && l.tag = tag then l.discard sector else l }

/-- A clean line is discarded from a slice; the registrations of its words stay with the slice's directory (R101, R102). -/
def State.discardLine (s : State) (b k : Nat) (x : HomeLine) : State :=
  let lines := kget [] (s.barn b).l2 k
  if lines.contains x then
    let s := s.setSlice b k (lines.filter (· != x))
    if x.loft || (s.ownedWords x.tag).isEmpty then s else s.enterDir b k x.tag
  else s

/-- ECC_UNCORRECTABLE (R102). -/
def execEccUncorrectable (site : EccSite) (s : State) : Host.Outcome State Fault Refusal :=
  match site with
  | .dram pa => when (pa < s.dramLimit) s (if (s.barn (backingBarn pa)).moved then s.poisonLine pa else s.failLine (backingBarn pa) (generalOffset pa))
  | .stall t => when (s.stallPresent t) s (s.stallLoss t)
  | .barn b => when (b < 288 && !(s.barn b).lost) s ((s.loseBarn b).settleFabric 576)
  | .l1 t loft tag sector => when (s.stallPresent t && sector < 2) s (s.modStall t fun st => st.discard loft tag sector)
  | .l2 b k loft tag =>
    when (b < 288 && !(s.barn b).lost && k < 8) s
      (s.discardLine b k { loft := loft, tag := tag })
  | .loft b p =>
    when (b < 288 && !(s.barn b).lost && p < s.cfg.lp.toNat * 32 * mib) s
      (s.failLine b (s.generalBytes + s.storeBytes + p))
  | .shadow b off =>
    when (b < 288 && !(s.barn b).lost && off < s.storeBytes) s (s.failLine b (s.generalBytes + off))
  | .record gang =>
    when ((kkeys s.gangs).contains gang) s (if s.ringWhole (partnerBarn (stableOf (s.gang gang).stall)) then s else s.loseRecord gang)

/-! ### Panel links (R246, R247) -/

/-- PANEL_LINK_FAILURE. -/
def execPanelLinkFailure (link : Nat) (s : State) : Host.Outcome State Fault Refusal :=
  when (link < 48 && (s.link link).up) s (s.dropLink link)

/-- PANEL_LINK_TRAINED: an enabled link of a barn that stands trains with a peer, whose INB and window it learns (R246,
R247). A trained link learns them again when the peer's host changes them. -/
def execPanelLinkTrained (link : Nat) (peer : Peer) (s : State) : Host.Outcome State Fault Refusal :=
  let l := s.link link
  when (link < 48 && peer.link < 48 && l.en && !(s.barn (linkBarn link)).lost) s
    (s.setLink link { l with up := true, peer := BitVec.ofNat 6 peer.link, peerInb := peer.inb, peerBase := peer.base, peerLen := peer.len })

/-- An inbound request lies in the link's window and in general DRAM (R247). -/
def State.inboundOk (s : State) (l : PLink) (pa n : Nat) : Bool :=
  l.en && l.up && l.inb && l.iwbase.toNat * 0x10000 ≤ pa && pa + n ≤ (l.iwbase.toNat + l.iwlen.toNat) * 0x10000 &&
  pa + n ≤ s.dramLimit

/-- Answer a peer: no bytes for an error, an empty list for an acknowledgement. -/
def State.reply (s : State) (link : Nat) (r : Option (List Byte)) : State :=
  s.setLink link { s.link link with replies := (s.link link).replies ++ [r] }

/-- The interval of an inbound request. -/
def inboundSpan : Inbound → Nat × Nat
  | .read pa n => (pa, n)
  | .write pa bs => (pa, bs.length)
  | .atomic _ ty pa _ _ => (pa, ty.bytes)
  | .own pa bs => (pa, bs.length)

/-- A joined panel's memory at its own home, as what the peer or its hosts do there leaves it: this panel's caches are not told. -/
def State.peerWrites (s : State) (link pa : Nat) (bs : List Byte) : State :=
  ((List.range bs.length).zip bs).foldl (fun s p => s.homeWrite (foreignLoc (0x10 + link) (pa + p.1)) p.2) s

/-- The bytes of an interval of locations are poisoned. -/
def State.anyPoison (s : State) (pa n : Nat) : Bool := (List.range n).any fun i => s.poisonAt (pa + i)

/-- PANEL_LINK_INBOUND: the request of a joined panel is performed at the home of its address (R111, R247). A change of the
peer's own memory needs no link. -/
def execPanelLinkInbound (link : Nat) (req : Inbound) (s : State) : Host.Outcome State Fault Refusal :=
  let pa := (inboundSpan req).1
  let n := (inboundSpan req).2
  let l := s.link link
  if let .own pa bs := req then when (link < 48) s (s.peerWrites link pa bs)
  else if link ≥ 48 || !l.up then idle s
  else if !s.inboundOk l pa n then happens (s.reply link none)
  else
    match req with
    | .own .. => idle s
    | .read pa n =>
      happens ((s.touchHomes pa n).reply link
        (if s.anyPoison pa n then none else some ((List.range n).map fun i => s.coherent (pa + i))))
    | .write pa bs => happens ((s.writeCoherent pa bs).reply link (some []))
    | .atomic op ty pa v c =>
      if s.anyPoison pa ty.bytes || pa % ty.bytes ≠ 0 || 9 ≤ op.toNat then happens (s.reply link none)
      else
        let m := s.coherentN pa ty.bytes
        let a := aopOf op.toNat
        let cmp := c.toNat % 2 ^ ty.bits
        let s' :=
          if a.writes m cmp then s.writeCoherentN pa ty.bytes (a.apply ty m (v.toNat % 2 ^ ty.bits) cmp)
          else s.touchHomes pa ty.bytes
        happens (s'.reply link (some (leBytes ty.bytes m)))

end Sys2Proof.Machine
end

