-- ==== Sys2Proof/Machine/Fetch.lean ====
section
/-!
DEFINITION. Fetching a line (R249 to R252): the stall's line store (R285), the checks of a fetch, the counting of refetches
(R194), and the expiry of an unowned L1 word (R122).
-/

namespace Sys2Proof.Machine

/-- A cause of a fetch (R212): no lanes. -/
def fetchTrap (c : Cause) (addr : Word) : Trap := { Trap.whole c addr with fetch := true }

/-- The held line at an address. -/
def Stall.heldLine (st : Stall) (a : Nat) : Option Nat := (st.lines.find? fun l => l.1 = a).map Prod.snd

/-- Enter a line in the store, or make it the most recently used: 256 lines, least recently used replaced (R285). -/
def Stall.holdLine (st : Stall) (a line : Nat) : Stall :=
  { st with lines := ((a, line) :: st.lines.filter fun l => l.1 != a).take 256 }

/-- Check 3 of R252: the line word. -/
def lineChecked (a : Word) (line : Nat) : Except Trap Nat :=
  if lineWordOk line then .ok line else .error (fetchTrap .illegalLine a)

/-- The refetches after a parity mismatch: the first that matches ends them, and each is counted (R194, R252). -/
def State.refetch (s : State) (stall : Nat) (a : Word) (loc : Nat) : State × Except Trap Nat :=
  let s := s.touchHomes loc 64
  let line := s.coherentN loc 64
  let ok := lineParityOk line
  let bump := fun (x : BitVec 32) => if ok then satInc x else satInc (satInc x)
  let s := (s.bumpCe .fetch (stableOf stall) bump).modStall stall fun st => st.holdLine a.toNat line
  (s, if ok then lineChecked a line
      else .error (fetchTrap (if lineWordOk line then .fetchParity else .illegalLine) a))

/-- A line that has been read, from the store or its home: its parity decides whether it is refetched (R252). -/
def State.takeLine (s : State) (stall : Nat) (a : Word) (loc line : Nat) : State × Except Trap Nat :=
  if lineParityOk line then (s.modStall stall fun st => st.holdLine a.toNat line, lineChecked a line)
  else s.refetch stall a loc

/-- Checks 1 to 3 of R252 for the line of a group's PC: translation with permission X, parity, the line word. A home read
of bad data takes POISON (R102, R247). -/
def State.fetchLine (s : State) (grp : Nat) : State × Except Trap Nat :=
  let g := s.group grp
  let stall := s.runsOn (gangOf grp)
  let a := lineAddr g.r.pc
  match s.translate stall g.r.sup a 64 .fetch with
  | .error f => (s, .error { fetchTrap f.cause a with mal := f.mal })
  | .ok p =>
    let s := s.touchTlb stall a
    match (s.stall stall).heldLine a.toNat with
    | some line => s.takeLine stall a p.loc line
    | none =>
      if (List.range 64).any (fun i => s.poisonAt (p.loc + i) || s.unreachable (p.loc + i)) then
        (s, .error (fetchTrap .poison a))
      else (s.touchHomes p.loc 64).takeLine stall a p.loc (s.coherentN p.loc 64)

/-- The line at a group's PC is held. -/
def State.lineHeld (s : State) (grp : Nat) : Bool :=
  ((s.stall (s.runsOn (gangOf grp))).heldLine (lineAddr (s.group grp).r.pc).toNat).isSome

/-- A fetch as an event of its own: its fault is the group's. -/
def State.fetchFor (s : State) (grp : Nat) : State :=
  let p := s.fetchLine grp
  match p.2 with
  | .ok _ => { p.1 with last := .event, tried := [] }
  | .error t => State.takeException { p.1 with cur := grp } false t

/-- The group stands at a blocking point and its launch is held: it parks there, and makes no further try before (R207, R209). -/
def State.mustPark (s : State) (grp : Nat) : Bool :=
  (s.group grp).blocked.isSome && !isCallable grp && s.preempted (lidOf (gangOf grp))

/-- A group that stands in its slot and may issue (R205, R206, R209, R222, R225, R232); of an ending gang only the run in the
callable slot that a groom has asked for, since its engine operations run to completion (R219). -/
def State.mayIssue (s : State) (grp : Nat) : Bool :=
  match s.group? grp with
  | none => false
  | some g =>
    let gang := s.gang (gangOf grp)
    g.standing = .slot && (gang.live || (isCallable grp && gang.phase = .ending)) &&
    !(s.stall (s.runsOn (gangOf grp))).lost && !s.mustPark grp &&
    (isCallable grp || (!s.replayWaits grp && !(kget DbgCtl.off (s.stall gang.stall).dbg g.slot).halted)) &&
    (match g.stage42 with | .sectionSent _ => false | .gbar => false | _ => true)

/-! ### The slots of a line -/

/-- The slot number of an instruction address. -/
def slotNo (pc : Word) : Nat := (pc.extractLsb' 0 3).toNat

/-- The instruction of a slot of a line; none where R264 refuses its bits. -/
def lineInstr (line k : Nat) : Option Instr :=
  match decodeSlot (lineSlot line k) with
  | .ok i => some i
  | .error _ => none

/-- The slots that issue together at a slot of a line (R206). -/
def slotsAt (line k : Nat) : List Nat := if linePair line k then [k, k + 1] else [k]

/-- A group that would issue but for a register interlock of a slot of its held line (R75). -/
def State.interlockedAt (s : State) (grp : Nat) : Bool :=
  let g := s.group grp
  match (s.stall (s.runsOn (gangOf grp))).heldLine (lineAddr g.r.pc).toNat with
  | none => false
  | some line =>
    s.mayIssue grp && g.blocked.isNone &&
    (slotsAt line (slotNo g.r.pc)).any fun k => match lineInstr line k with | some i => interlocked i g | none => false

/-- LINE_FETCH (R285). -/
def execLineFetch (grp : Nat) (s : State) : Host.Outcome State Fault Refusal :=
  if s.mayIssue grp && !s.lineHeld grp then .next (s.fetchFor grp) else idle s

/-- A line without one of its unowned words (R122); nothing when no word is left. -/
def Line.expire (l : Line) (w : Nat) : Option Line :=
  let l := { l with valid := setBit l.valid w false }
  if l.valid = 0 && l.owned = 0 then none else some l

/-- L1_WORD_EXPIRY. -/
def execL1WordExpiry (stall word : Nat) (s : State) : Host.Outcome State Fault Refusal :=
  let tag := word / 16
  let w := word % 16
  match (s.stall stall).line? false tag with
  | none => idle s
  | some l =>
    when (l.valid.getLsbD w) s
      (s.modStall stall fun st =>
        { st with l1 := st.l1.filterMap fun x => if x.loft = false && x.tag = tag then x.expire w else some x })

end Sys2Proof.Machine
end

