-- ==== Sys2Proof/Machine/Crypto.lean ====
section
/-!
DEFINITION. What the loader checks and what an attestation report digests (R244, R245), as the standards that the spec names
define it (PRESUMED, log 76): SHA-384 and SHA-256 (FIPS 180-4), ECDSA on P-384 (FIPS 186-5), LMS_SHA256_M32_H20 with
LMOTS_SHA256_N32_W8 (RFC 8554).
-/

namespace Sys2Proof.Crypto

/-! ### Bytes -/

/-- The n big-endian bytes of a number. -/
def beBytes (n x : Nat) : List (BitVec 8) := (List.range n).map fun i => BitVec.ofNat 8 (x >>> (8 * (n - 1 - i)))
/-- The number of big-endian bytes. -/
def beNat (bs : List (BitVec 8)) : Nat := bs.foldl (fun a b => a * 256 + b.toNat) 0
/-- Bytes in blocks of n. -/
def blocks {α : Type} (n : Nat) (l : List α) : List (List α) :=
  (List.range ((l.length + n - 1) / n)).map fun i => (l.drop (n * i)).take n

/-! ### SHA-2 -/

/-- The greatest r below 2^n with r^k ≤ x. -/
def rootBelow (k x : Nat) : Nat → Nat
  | 0 => 0
  | n + 1 =>
    let r := 2 * rootBelow k (x / 2 ^ k) n
    if (r + 1) ^ k ≤ x then r + 1 else r

def primes (below : Nat) : List Nat :=
  (List.range below).filter fun p => 2 ≤ p && (List.range p).all fun d => d < 2 || p % d ≠ 0

/-- The first w fractional bits of the k-th roots of the primes. -/
def rootBits (k w below : Nat) : List (BitVec w) := (primes below).map fun p => BitVec.ofNat w (rootBelow k (p * 2 ^ (k * w)) (w + 8))

/-- The six functions of a member of the family with words of w bits, by its rotations. -/
structure Sha (w : Nat) where
  rounds : Nat
  big0 : Nat × Nat × Nat
  big1 : Nat × Nat × Nat
  small0 : Nat × Nat × Nat
  small1 : Nat × Nat × Nat

def rot3 {w : Nat} (r : Nat × Nat × Nat) (x : BitVec w) : BitVec w := x.rotateRight r.1 ^^^ x.rotateRight r.2.1 ^^^ x.rotateRight r.2.2
def rotShift {w : Nat} (r : Nat × Nat × Nat) (x : BitVec w) : BitVec w := x.rotateRight r.1 ^^^ x.rotateRight r.2.1 ^^^ x >>> r.2.2

def sha256Family : Sha 32 :=
  { rounds := 64, big0 := (2, 13, 22), big1 := (6, 11, 25), small0 := (7, 18, 3), small1 := (17, 19, 10) }
def sha512Family : Sha 64 :=
  { rounds := 80, big0 := (28, 34, 39), big1 := (14, 18, 41), small0 := (1, 8, 7), small1 := (19, 61, 6) }

/-- The message schedule, latest word first. -/
def schedule {w : Nat} (f : Sha w) : Nat → List (BitVec w) → List (BitVec w)
  | 0, ws => ws
  | n + 1, ws =>
    let x := rotShift f.small1 (ws.getD 1 0) + ws.getD 6 0 + rotShift f.small0 (ws.getD 14 0) + ws.getD 15 0
    schedule f n (x :: ws)

/-- One round on the eight working variables a to h. -/
def round {w : Nat} (f : Sha w) (v : List (BitVec w)) (kw : BitVec w) : List (BitVec w) :=
  match v with
  | [a, b, c, d, e, x, g, h] =>
    let t1 := h + rot3 f.big1 e + ((e &&& x) ^^^ (~~~e &&& g)) + kw
    let t2 := rot3 f.big0 a + ((a &&& b) ^^^ (a &&& c) ^^^ (b &&& c))
    [t1 + t2, a, b, c, d + t1, e, x, g]
  | v => v

/-- The hash value after one block. -/
def compress {w : Nat} (f : Sha w) (ks hs : List (BitVec w)) (block : List (BitVec 8)) : List (BitVec w) :=
  let ws := (blocks (w / 8) block).map fun b => BitVec.ofNat w (beNat b)
  let sched := (schedule f (f.rounds - 16) ws.reverse).reverse
  (hs.zip ((ks.zip sched).foldl (fun v p => round f v (p.1 + p.2)) hs)).map fun p => p.1 + p.2

/-- A message with its padding: a 1 bit, zeros, the length in bits. -/
def padded (w : Nat) (m : List (BitVec 8)) : List (BitVec 8) :=
  let block := 2 * w
  let tail := w / 4
  let zeros := (2 * block - (m.length + 1 + tail) % block) % block
  m ++ 0x80 :: List.replicate zeros 0 ++ beBytes tail (8 * m.length)

def hash {w : Nat} (f : Sha w) (ks hs : List (BitVec w)) (m : List (BitVec 8)) : List (BitVec 8) :=
  ((blocks (2 * w) (padded w m)).foldl (compress f ks) hs).flatMap fun x => beBytes (w / 8) x.toNat

/-- SHA-256: the constants are the roots of the first 64 and the first 8 primes. -/
def sha256 (m : List (BitVec 8)) : List (BitVec 8) := hash sha256Family (rootBits 3 32 312) (rootBits 2 32 20) m
/-- SHA-384: SHA-512 from the roots of the 9th to the 16th primes, cut to 48 bytes. -/
def sha384 (m : List (BitVec 8)) : List (BitVec 8) := (hash sha512Family (rootBits 3 64 410) ((rootBits 2 64 54).drop 8) m).take 48

/-! ### ECDSA on P-384 -/

def prime384 : Nat := 2 ^ 384 - 2 ^ 128 - 2 ^ 96 + 2 ^ 32 - 1
def order384 : Nat := 0xffffffffffffffffffffffffffffffffffffffffffffffffc7634d81f4372ddf581a0db248b0a77aecec196accc52973
def base384 : Nat × Nat :=
  (0xaa87ca22be8b05378eb1c71ef320ad746e1d3b628ba79b9859f741e082542a385502f25dbf55296c3a545e3872760ab7,
   0x3617de4a96262c6f5d9e98bf9292dc29f8f41dbd289a147ce9da3113b5f0b8c00a60b1ce1d7e819d7a431d7c90ea0e5f)

/-- b^e modulo m, over the low n bits of e. -/
def powMod (m b : Nat) : Nat → Nat → Nat
  | 0, _ => 1 % m
  | n + 1, e =>
    let r := powMod m (b * b % m) n (e / 2)
    if e % 2 = 1 then b * r % m else r

/-- The inverse modulo a prime below 2^384. -/
def invMod (m x : Nat) : Nat := powMod m x 384 (m - 2)

/-- Addition of two points of the curve; none is the point at infinity. -/
def addPoint : Option (Nat × Nat) → Option (Nat × Nat) → Option (Nat × Nat)
  | none, q => q
  | p, none => p
  | some (x1, y1), some (x2, y2) =>
    let m := prime384
    if x1 = x2 && (y1 + y2) % m = 0 then none
    else
      let l := if x1 = x2 then (3 * x1 * x1 + (m - 3)) * invMod m (2 * y1 % m) % m
        else (y2 + m - y1) * invMod m ((x2 + m - x1) % m) % m
      let x3 := (l * l + 2 * m - x1 - x2) % m
      some (x3, (l * (x1 + m - x3) + m - y1) % m)

/-- A multiple of a point, over the low n bits of the factor. -/
def mulPoint (p : Option (Nat × Nat)) : Nat → Nat → Option (Nat × Nat)
  | 0, _ => none
  | n + 1, k =>
    let r := mulPoint (addPoint p p) n (k / 2)
    if k % 2 = 1 then addPoint p r else r

/-- A signature (r, s) of a message under a public key. -/
def ecdsaVerify (key : Nat × Nat) (message sig : List (BitVec 8)) : Bool :=
  let r := beNat (sig.take 48)
  let t := beNat (sig.drop 48)
  let w := invMod order384 t
  let e := beNat (sha384 message)
  let point := addPoint (mulPoint (some base384) 384 (e * w % order384)) (mulPoint (some key) 384 (r * w % order384))
  1 ≤ r && r < order384 && 1 ≤ t && t < order384 &&
  match point with
  | none => false
  | some p => p.1 % order384 = r

/-! ### LMS (RFC 8554) -/

/-- The hash of a node or chain element: I, a 32-bit number, a 16-bit mark, the rest. -/
def lmsHash (i : List (BitVec 8)) (q mark : Nat) (rest : List (BitVec 8)) : List (BitVec 8) :=
  sha256 (i ++ beBytes 4 q ++ beBytes 2 mark ++ rest)

/-- The chain of element k from step j, over n steps. -/
def otsChain (i : List (BitVec 8)) (q k : Nat) : Nat → Nat → List (BitVec 8) → List (BitVec 8)
  | 0, _, x => x
  | n + 1, j, x => otsChain i q k n (j + 1) (lmsHash i q k (beBytes 1 j ++ x))

/-- The public-key candidate of an LM-OTS signature with W = 8: 34 elements of 32 bytes. -/
def otsCandidate (i : List (BitVec 8)) (q : Nat) (message c y : List (BitVec 8)) : List (BitVec 8) :=
  let d := lmsHash i q 0x8181 (c ++ message)
  let check := (d.map fun b => 255 - b.toNat).sum
  let digits := (d.map fun b => b.toNat) ++ [check / 256 % 256, check % 256]
  let z := ((List.range 34).zip digits).flatMap fun p => otsChain i q p.1 (255 - p.2) p.2 ((y.drop (32 * p.1)).take 32)
  lmsHash i q 0x8080 z

/-- The climb from a leaf to the root over a path of 32-byte nodes. -/
def lmsClimb (i : List (BitVec 8)) : Nat → List (BitVec 8) → List (List (BitVec 8)) → List (BitVec 8)
  | _, x, [] => x
  | node, x, p :: path =>
    lmsClimb i (node / 2) (lmsHash i (node / 2) 0x8383 (if node % 2 = 1 then p ++ x else x ++ p)) path

/-- A signature of 1,772 bytes of a message under a public key's I and root. -/
def lmsVerify (i root message sig : List (BitVec 8)) : Bool :=
  let q := beNat (sig.take 4)
  let ots := sig.drop 4
  let leaf := lmsHash i (2 ^ 20 + q) 0x8282 (otsCandidate i q message ((ots.drop 4).take 32) ((ots.drop 36).take 1088))
  sig.length = 1772 && beNat (ots.take 4) = 4 && beNat ((ots.drop 1124).take 4) = 8 && q < 2 ^ 20 &&
  lmsClimb i (2 ^ 20 + q) leaf (blocks 32 (ots.drop 1128)) = root

end Sys2Proof.Crypto
end

