-- ==== Sys2Proof/Machine/Barrier.lean ====
section
/-!
DEFINITION. Major 0x67: the barrier objects held in scratchpad (R327 to R329).
-/

namespace Sys2Proof.Machine

/-- The own-scratchpad object an instruction reads: inside SCRSIZE, a multiple of 32, and not poisoned (R102, R312, R327). -/
def State.ownObject (s : State) (ea : Word) : Except Stop Nat := do
  let off ← wholeCheck (s.ownStruct (gangOf s.cur) ea 32 32)
  need (!s.scrPoisoned s.here off 32) .poison ea
  pure off

/-- BINIT is an own-scratchpad store, checked against the range-lock table (R329). -/
def coreBinit (o : Slot) (s : State) : Eff := do
  let ea := eaScalar o s.regs
  let off ← wholeCheck (s.ownRecord (gangOf s.cur) s.here ea 32 32 .write)
  let b := (scalarOf o s.regs o.b).extractLsb' 0 32
  let c := (scalarOf o s.regs o.c).extractLsb' 0 32
  let bytes := leBytes 4 b.toNat ++ leBytes 4 c.toNat ++ leBytes 12 0 ++ leBytes 4 1 ++ leBytes 8 0
  pushSt (Op.taken [] []) (s.scrWrite s.here off bytes)
def execBinit (o : Slot) (s : State) := issueLogged (.binit o) (coreBinit o) s

/-- BARR on an own object (R329). -/
def ownBarr (o : Slot) (s : State) : Except Stop (State × List RegWrite) := do
  let ea := eaScalar o s.regs
  let off ← s.ownObject ea
  let count := (scalarOf o s.regs o.b).extractLsb' 0 32
  need (s.objectOk s.here off) .poison ea
  need (s.countOk s.here off count) .barrierCount ea
  pure (s.updateObject s.here off 1 0, [.s o.dst.num (BitVec.ofNat 64 (s.objWord s.here off 4))])

def execBarr (o : Slot) (s : State) := issueLogged (.barr o) (boundary (outside (ownBarr o)) .issue) s

/-- BARR on an object of another stall (R329): its effect is performed there, and its reply comes back. -/
def sendBarr (o : Slot) (s : State) : Except Stop (Option Op) :=
  let ea := eaScalar o s.regs
  let a : Acc := { lane := 0, va := ea, loc := ea.toNat, bytes := 32, uncached := false, value := 0, compare := 0 }
  let count := (scalarOf o s.regs o.b).extractLsb' 0 32
  .ok (some (Op.make (.arrive (s.regs.getS o.c.num).toNat count) .n32 [.s o.dst.num] [a] []))

def execBarrRemote (o : Slot) (s : State) :=
  issueLogged (.barrRemote o) (boundary (heldErrand none (sendBarr o)) .issue) s

/-- Round n of an object counts as passed (R328). -/
def roundPassed (round n : BitVec 32) : Bool := let d := (round - n).toNat; 1 ≤ d && d ≤ 0x7FFFFFFF

/-- BWAIT (R329): a blocking point with WAKE code 1. -/
def coreBwait (o : Slot) (s : State) : Eff := do
  let ea := eaScalar o s.regs
  let off ← s.ownObject ea
  need (s.objectOk s.here off) .poison ea
  let n := (scalarOf o s.regs o.b).extractLsb' 0 32
  if roundPassed (BitVec.ofNat 32 (s.objWord s.here off 4)) n then pure (s.acquireAt s.here)
  else .error (.hold (some (.barrier off n)))
def execBwait (o : Slot) (s : State) := issueLogged (.bwait o) (coreBwait o) s

/-- BTEST (R329). -/
def performBtest (o : Slot) (s : State) : Except Stop (State × List RegWrite) := do
  let ea := eaScalar o s.regs
  let off ← s.ownObject ea
  need (s.objectOk s.here off) .poison ea
  let round := BitVec.ofNat 32 (s.objWord s.here off 4)
  let p := roundPassed round ((scalarOf o s.regs o.b).extractLsb' 0 32)
  pure (s.acquireIf p, [.s o.dst.num (BitVec.ofNat 64 (round.toNat * 2 ^ 32 + p.toNat))])
def execBtest (o : Slot) (s : State) :=
  issueLogged (.btest o) (fun s => logged 5 (eaScalar o s.regs) (performBtest o) s) s

end Sys2Proof.Machine
end

