-- ==== Sys2Proof/Machine/Yard.lean ====
section
/-!
DEFINITION. Major 0xA3: the yard barrier (R392 to R394) and the release of its rounds. Major 0xA4: TLBINV (R395), and the
shootdowns that TLBINV and VOLINV send (R322, R395).
-/

namespace Sys2Proof.Machine

/-! ### Binding a context (R392) -/

/-- The 217 pieces of 64 bytes of a descriptor, each at its place in memory. -/
def State.yardPieces (s : State) (ea : Word) : Except LaneFault (List Nat) :=
  (List.range 217).mapM fun i => s.homeAcc s.regs.sup (ea + BitVec.ofNat 64 (64 * i)) 64 64 .read

/-- Byte i of the descriptor. -/
def State.yardByte (s : State) (ps : List Nat) (i : Nat) : Byte := s.coherent (ps.getD (i / 64) 0 + i % 64)
def State.yardN (s : State) (ps : List Nat) (i n : Nat) : Nat := leValue ((List.range n).map fun k => s.yardByte ps (i + k))

/-- The context as a descriptor binds it: none of a malformed header or mask. -/
def State.yardOf (s : State) (launch : BitVec 32) (ea : Word) (ps : List Nat) : Option Yard :=
  let head := s.yardN ps 0 64
  let masks := (List.range 288).map fun st => (st, s.yardN ps (64 + 48 * st) 48)
  let yper := head % 32
  if head / 32 ≠ 0 || yper = 0 || 16 < yper || masks.any (fun m => m.2 / 2 ^ 360 ≠ 0) then none
  else
    some { Yard.free with
      bound := true, launch := launch, desc := ea, yper := yper,
      masks := masks.foldl (fun k m => kset 0 k m.1 (BitVec.ofNat 384 m.2)) [] }

/-- A logical stall takes part in a context. -/
def Yard.takesPart (y : Yard) (stall : Nat) : Bool := (kget 0 y.masks (stableOf stall)).getLsbD (logicalOf stall)

/-- The context a group names by YCTX. -/
def State.myYard (s : State) : Nat := s.regs.yctx.toNat

/-- The context of a YBAR: the one bound, or the one its descriptor binds (R392). -/
def yardFor (ea : Word) (s : State) : Except Stop Yard := do
  let y := s.yard s.myYard
  if y.bound then
    need (y.launch = s.regs.launchId && y.desc = ea) .permission ea
    pure y
  else
    let atEa := fun (f : LaneFault) => { f with addr := ea }
    let ps ← wholeCheck ((s.yardPieces ea).mapError atEa)
    match s.yardOf s.regs.launchId ea ps with
    | none => trapNow .poison ea
    | some y => pure y

/-! ### YBAR and YWAIT (R393, R394) -/

def ybarStep (o : Slot) (s : State) : Except Stop (State × List RegWrite) := do
  let ea := eaScalar o s.regs
  let y ← yardFor ea s
  let t := s.myStall
  need (y.takesPart t) .permission ea
  let a := kget 0 y.arrived t
  if a < y.yper then
    pure (s.setYard s.myYard { y with arrived := kset 0 y.arrived t (a + 1) },
      [.s o.dst.num ((kget 0 y.rounds t).setWidth 64)])
  else holdNow
def execYbar (o : Slot) (s : State) := issueLogged (.ybar o) (boundary (outside (ybarStep o)) .issue) s

/-- YWAIT: a satisfied wait is an acquire; the wait is no blocking point. -/
def coreYwait (o : Slot) (s : State) : Eff := do
  let y := s.yard s.myYard
  need (y.bound && y.launch = s.regs.launchId) .permission
  let n := (scalarOf o s.regs o.b).extractLsb' 0 32
  if roundPassed (kget 0 y.rounds s.myStall) n then pure (s.acquireAt s.here) else holdNow
def execYwait (o : Slot) (s : State) := issueLogged (.ywait o) (coreYwait o) s

/-- A stall that its node waits for: excused when absent and unhosted, or when its stable is lost and it has no host. -/
def State.yardCounts (s : State) (stall : Nat) : Bool :=
  let e := s.spare stall
  e.hosted || !(e.absent || (s.stable (stableOf stall)).lost)

/-- The stalls whose mask bits are set. -/
def Yard.stalls (y : Yard) : List Nat :=
  y.masks.flatMap fun m => ((List.range 360).filter fun i => m.2.getLsbD i).map fun i => 360 * m.1 + i

/-- The whole tree reports arrived. -/
def State.yardArrived (s : State) (y : Yard) : Bool :=
  y.bound && y.stalls.all fun t => !s.yardCounts t || kget 0 y.arrived t = y.yper

/-- The release of a round: every stall takes A := 0 and Q := Q + 1. -/
def Yard.release (y : Yard) : Yard :=
  { y with arrived := [], rounds := y.stalls.foldl (fun q t => kset 0 q t (kget 0 q t + 1)) y.rounds }

/-- YARD_ROUND_RELEASE (R393). -/
def execYardRoundRelease (ctx : Nat) (s : State) : Host.Outcome State Fault Refusal :=
  let y := s.yard ctx
  when (s.yardArrived y) s (s.setYard ctx y.release)

/-! ### Translation shootdowns (R159, R395) -/

/-- An entry maps some byte of an interval of pages, or every entry is named. -/
def TlbEntry.named (t : TlbEntry) (all : Bool) (va pages : Nat) : Bool :=
  let base := t.vpn * (if t.large then 2 ^ 25 else 2 ^ 16)
  all || overlaps base (if t.large then 2 ^ 25 else 2 ^ 16) va (65536 * pages)

/-- An outstanding command uses an entry that an invalidation names: a page of its own, or the 32 MiB about it (R324). -/
def Cmd.uses (c : Cmd) (all : Bool) (va pages : Nat) : Bool :=
  c.pages.any fun q => all || overlaps (65536 * q.1) 65536 va (65536 * pages) ||
    (c.large.contains q.1 && overlaps (q.1 / 512 * 2 ^ 25) (2 ^ 25) va (65536 * pages))

/-- Every access already translated has been performed, and no outstanding cart uses an entry that is named. -/
def State.tlbQuiet (s : State) (all : Bool) (va pages : Nat) : Bool :=
  s.groups.all (fun p => p.2.ops.all fun o => o.pendingCells.isEmpty && (o.performed || o.kind != .load)) &&
  s.stalls.all fun p => p.2.cartq.all fun c => !c.uses all va pages

/-- Every stable removes the named entries and empties the line stores of its stalls. -/
def State.invalidateTlbs (s : State) (all : Bool) (va pages : Nat) : State :=
  let keep := fun (tlb : List TlbEntry) => tlb.filter fun t => !t.named all va pages
  let s := (kkeys s.stalls).foldl
    (fun s n => s.modStall n fun st => { st with utlb := keep st.utlb, lines := [] }) s
  (kkeys s.stables).foldl (fun s n => s.modStable n fun st => { st with tlb := keep st.tlb }) s

/-- The stables that acknowledge: 288 less the lost ones (R395). -/
def State.liveStables (s : State) : Nat := 288 - (s.stables.filter fun p => p.2.lost).length

/-- TLBINV waits for the group's earlier stores before it sends (R395). -/
def sendTlbinv (o : Slot) (kind : OpKind) (s : State) : Except Stop (Option Op) :=
  if s.me.st ≠ 0 || !s.me.storesGranted then holdNow
  else .ok (some (Op.make kind .n32 [.s o.dst.num] [] []))

def coreTlbinv (o : Slot) (s : State) : Eff :=
  let pages := (scalarOf o s.regs o.b).toNat % 65536 + 1
  errand none (sendTlbinv o (.tlbinv false (s.regs.getS o.a.num) pages))
    (fun ws s => .ok (s.setRegs (s.regs.writes ws))) s
def execTlbinv (o : Slot) (s : State) := issueLogged (.tlbinv o) (coreTlbinv o) s

def coreTlbinvAll (o : Slot) (s : State) : Eff :=
  errand none (sendTlbinv o (.tlbinv true 0 0)) (fun ws s => .ok (s.setRegs (s.regs.writes ws))) s
def execTlbinvAll (o : Slot) (s : State) := issueLogged (.tlbinvAll o) (coreTlbinvAll o) s

/-- The reply of a shootdown: the number of acknowledgements. -/
def State.shootReply (s : State) (grp n : Nat) : State :=
  s.modGroup grp fun g => g.setErrand fun o =>
    { o with kind := .replied, result := o.dst.filterMap fun d =>
        match d with | .s i => some (RegWrite.s i (BitVec.ofNat 64 n)) | _ => none }

/-- SHOOTDOWN_ACK: every stall or stable that a group's VOLINV or TLBINV reaches has removed its entries and
acknowledged (R322, R395). -/
def execShootdownAck (grp : Nat) (s : State) : Host.Outcome State Fault Refusal :=
  match (s.group grp).errand? with
  | some o =>
    match o.kind with
    | .volinv desc first n =>
      let ts := s.volStalls first n
      let hosts := (ts.map s.hostOf).eraseDups
      when (hosts.all fun t => !s.stallPending t) s
        ((hosts.foldl (fun s t => s.modStall t fun st => st.clbRemove desc) s).shootReply grp ts.length)
    | .tlbinv all va pages =>
      when (s.tlbQuiet all va.toNat pages) s ((s.invalidateTlbs all va.toNat pages).shootReply grp s.liveStables)
    | _ => idle s
  | none => idle s

end Sys2Proof.Machine
end

