-- ==== Sys2Proof/Machine/Host.lean ====
section
/-!
DEFINITION. What a host does at a port, and what answers it: the rights of the ports (R237, R238), ownership (R239, R240), the
loader and attestation (R243 to R245), resets and port links (R248), appends (R139, R140), shootdowns and tile maps
(R159, R163, R167), pre-emption (R208), TFDONE and the event ring (R217, R218), loft and memory accesses (R105, R110,
R241), debugging (R232).
-/

namespace Sys2Proof.Machine

/-! ### Answers (R233) -/

/-- The answer to a host's request: no bytes for an Unsupported Request (R233). -/
def State.answer (s : State) (port : Nat) (r : Option (List Byte)) : State :=
  s.setPort port { s.port port with reads := (s.port port).reads ++ [r] }

/-! ### Rights (R237) -/

/-- A port through which a host reaches the panel. -/
def State.portUp (s : State) (port : Nat) : Bool := port < 4 && (s.port port).link

/-- A write discarded for want of ownership, or refused by a register's own rule. -/
def State.deniedAt (s : State) (port : Nat) : State := s.setPort port { s.port port with denied := true }
def State.refusedAt (s : State) (port : Nat) : State := s.setPort port { s.port port with refused := true }

/-- A write of the owner; a register's own rule may refuse it. -/
def State.ownerWrite (s : State) (port : Nat) (allowed : Bool) (f : State → State) : State :=
  if !s.owns port then s.deniedAt port else if allowed then f s else s.refusedAt port

/-- An event of a host at a port. -/
def atPort (port : Nat) (s s' : State) : Host.Outcome State Fault Refusal := when (s.portUp port) s s'

/-- The firmware runs (R243). -/
def State.booted (s : State) : Bool := s.loader.state = 2

/-- No gang is resident: placed and not retired. -/
def State.noGang (s : State) : Bool := s.gangs.isEmpty

/-! ### Ownership (R239, R240) -/

/-- OWNCTL_CLAIM: the first valid claim takes the panel; any other sets CLOST. -/
def State.claimOwner (s : State) (port : Nat) : State :=
  if !s.own.owned && (s.port port).busMaster then
    s.changeOwner { s.own with owner := BitVec.ofNat 2 port, owned := true }
  else s.setPort port { s.port port with clost := true }
/-- Claims that arrive in one cycle: the lowest port's comes first (R239). -/
def execOwnctlClaim (ports : List Nat) (s : State) : Host.Outcome State Fault Refusal :=
  let up := (List.range 4).filter fun p => ports.contains p && s.portUp p
  when (!up.isEmpty) s (up.foldl State.claimOwner s)

/-- OWNCTL_HANDOVER_OFFER. -/
def State.offer (s : State) (hport : Nat) : State := { s with own := { s.own with hport := BitVec.ofNat 2 hport, hreq := true } }
def execOwnctlHandoverOffer (port hport : Nat) (s : State) : Host.Outcome State Fault Refusal :=
  atPort port s (s.ownerWrite port true fun s => s.offer hport)

/-- OWNCTL_OFFER_WITHDRAW. -/
def State.withdrawOffer (s : State) : State := { s with own := { s.own with hreq := false } }
def execOwnctlOfferWithdraw (port : Nat) (s : State) : Host.Outcome State Fault Refusal :=
  atPort port s (s.ownerWrite port true State.withdrawOffer)

/-- OWNCTL_ACCEPT: the offer to this port stands. -/
def State.acceptOffer (s : State) (port : Nat) : State :=
  if s.own.hreq && s.own.hport.toNat = port then s.changeOwner { s.own with owner := BitVec.ofNat 2 port, owned := true }
  else s
def execOwnctlAccept (port : Nat) (s : State) : Host.Outcome State Fault Refusal := atPort port s (s.acceptOffer port)

/-- OWNCTL_RELEASE. -/
def execOwnctlRelease (port : Nat) (s : State) : Host.Outcome State Fault Refusal :=
  atPort port s (s.ownerWrite port true State.disown)

/-! ### Resets and links of the ports (R248) -/

/-- Cold boot: every gang is gone without event; foreign memory, its hosts' errors and what the ports' root complexes support
stay. -/
def State.coldBoot (s : State) : State :=
  let foreign := fun (loc : Nat) => homeOfLoc loc ≠ 0 && loc < 2 ^ 62
  (List.range 4).foldl
    (fun x p =>
      let q := s.port p
      x.setPort p { Port.fresh with busMaster := q.busMaster, atomics := q.atomics, bad := q.bad })
    { State.reset with gmem := s.gmem.filter (fun c => foreign c.1), poison := s.poison.filter (fun c => foreign c.1),
                       free := s.free, boots := s.boots + 1 }

/-- POWER_ON. -/
def execPowerOn (s : State) : Host.Outcome State Fault Refusal := happens s.coldBoot

/-- PANELRST: a write of 1 by the owner (R235). -/
def execPanelrst (port : Nat) (s : State) : Host.Outcome State Fault Refusal :=
  atPort port s (s.ownerWrite port true State.coldBoot)

/-- PORT_RESET: a hot reset or a function-level reset; the link retrains and the owner gives up the panel (R240). -/
def execPortReset (port : Nat) (s : State) : Host.Outcome State Fault Refusal :=
  when (port < 4) s ((s.dropPort port).disownIf port)

/-- PORT_LINK_DOWN. -/
def execPortLinkDown (port : Nat) (s : State) : Host.Outcome State Fault Refusal :=
  when (s.portUp port) s ((s.setPort port { s.port port with downTicks := 0 }).dropPort port)

/-- PORT_LINK_UP: the port's barn stands; the host sets Bus Master Enable, and its root port supports AtomicOp or not (R108,
R239). -/
def execPortLinkUp (up : PortUp) (s : State) : Host.Outcome State Fault Refusal :=
  let p := s.port up.port
  when (up.port < 4 && !p.link && !(s.barn (portBarn up.port)).lost) s
    (s.setPort up.port { p with link := true, downTicks := 0, busMaster := up.busMaster, atomics := up.atomics })

/-- The ticks after which an owner whose link stays down loses the panel (R240). -/
def linkGrace : Nat := 100000000

/-- PORT_LINK_DOWN_TIMEOUT. -/
def execPortLinkDownTimeout (port : Nat) (s : State) : Host.Outcome State Fault Refusal :=
  when (port < 4 && !(s.port port).link && s.owns port && linkGrace ≤ (s.port port).downTicks) s s.disown

/-! ### The loader (R243, R244) -/

def numAt (m : Memory) (a n : Nat) : Nat := leValue (m.readN a n)

/-- The checks of R244 in order: the code of the first that fails, 0 when all pass. -/
def imageError (b : Memory) : Nat :=
  let size := numAt b 8 4
  let body := b.readN 8192 size
  let zeros := fun (a n : Nat) => (b.readN a n).all (· = 0)
  if numAt b 0 4 ≠ 0x5A484631 || size % 4096 ≠ 0 || 33546240 < size || !zeros 12 4 || !zeros 1932 6260 then 1
  else if Crypto.sha384 body ≠ b.readN 16 48 then 2
  else if !Crypto.ecdsaVerify Config.ecdsaKey (b.readN 0 64) (b.readN 64 96) then 3
  else if !Crypto.lmsVerify (Crypto.beBytes 16 Config.lmsId.toNat) (Crypto.beBytes 32 Config.lmsRoot.toNat) (b.readN 0 64)
    (b.readN 160 1772) then 4
  else if numAt b 4 4 < Config.vmin.toNat then 5
  else 0

/-- LDRCTL_GO: in STATE 0 or 3 the loader verifies its buffer. -/
def State.go (s : State) : State :=
  if s.loader.state = 0 || s.loader.state = 3 then { s with loader := { s.loader with state := 1 } } else s
def execLdrctlGo (port : Nat) (s : State) : Host.Outcome State Fault Refusal :=
  atPort port s (s.ownerWrite port true State.go)

/-- The logical entry of a stable some of whose physical stalls fail: the working ones behind the lowest logical numbers, in
order, the rest absent (R24). -/
def mapStall (bad : BitVec 384) (l : Nat) : Spare :=
  match ((List.range 384).filter fun p => !bad.getLsbD p)[l]? with
  | some p => { Spare.fresh with phys := BitVec.ofNat 9 p }
  | none => { Spare.fresh with phys := BitVec.ofNat 9 l, absent := true }

/-- The firmware builds the spare map at its start from the test record and the self-test (R24, R185, log 73). -/
def State.buildSpares (s : State) : State :=
  (List.range 288).foldl (fun s n =>
    let bad := Config.testRecord n ||| Config.selfTest s.free n
    if bad = 0 then s
    else s.modStable n fun x => { x with failed := bad, spares := (List.range 360).map fun l => (l, mapStall bad l) }) s

/-- The loader has finished: the firmware runs, or STATE is 3; the owner is told (R242, R243). -/
def State.verified (s : State) : State :=
  let e := imageError s.loader.buffer
  let s : State :=
    if e = 0 then
      { s with loader := { s.loader with state := 2, err := 0, version := BitVec.ofNat 32 (numAt s.loader.buffer 4 4) }
               fwTvec := Config.firmwareTvec s.free, free := s.free + 1 : State }.buildSpares
    else { s with loader := { s.loader with state := 3, err := BitVec.ofNat 8 e } }
  if s.own.owned then s.msix s.own.owner.toNat 2 else s
def execLoaderVerifyDone (s : State) : Host.Outcome State Fault Refusal := when (s.loader.state = 1) s s.verified

/-! ### Attestation (R245) -/

/-- ATTCTL_REQ: a request with the nonce that its port's words hold. -/
def State.askReport (s : State) (port : Nat) : State :=
  { s with att := { s.att with queue := s.att.queue ++ [(port, (s.port port).nonce)] } }
def execAttctlReq (port : Nat) (s : State) : Host.Outcome State Fault Refusal := atPort port s (s.askReport port)

/-- The spare map as its entries' bytes, stable by stable (R185). -/
def State.spareBytes (s : State) : List Byte :=
  (List.range 288).flatMap fun t => (List.range 360).flatMap fun l =>
    let e := s.spare (360 * t + l)
    leBytes 2 (e.phys.toNat + 512 * e.absent.toNat + 1024 * e.repl.toNat)

/-- What a report holds, before its signatures. -/
def State.reportBody (s : State) (nonce : BitVec 256) : Report :=
  { nonce := nonce, image := BitVec.ofNat 384 (Crypto.beNat (Crypto.sha384 (s.loader.buffer.readN 0 64))), version := s.loader.version, serial := Config.serial,
    spares := BitVec.ofNat 384 (Crypto.beNat (Crypto.sha384 s.spareBytes)), owner := s.own.owner, epoch := s.own.epoch, ecdsa := [], lms := [] }

/-- The signed contents as bytes. -/
def Report.bytes (r : Report) : List Byte :=
  leBytes 32 r.nonce.toNat ++ Crypto.beBytes 48 r.image.toNat ++ leBytes 4 r.version.toNat ++ leBytes 4 r.serial.toNat ++
  Crypto.beBytes 48 r.spares.toNat ++ leBytes 1 r.owner.toNat ++ leBytes 2 r.epoch.toNat

/-- The number of reports one boot's LMS key can sign. -/
def reportLimit : Nat := 32768

/-- ATTESTATION_REPORT_DONE: the oldest request is served, or finds the key used up. -/
def State.serveReport (s : State) (port : Nat) (nonce : BitVec 256) : State :=
  let rest := s.att.queue.drop 1
  if reportLimit ≤ s.att.served then { s with att := { s.att with queue := rest, err := 1 } }
  else
    let r := s.reportBody nonce
    let r := { r with ecdsa := Config.ecdsaSign r.bytes, lms := Config.lmsSign s.att.served r.bytes }
    { s with att := { s.att with queue := rest, port := BitVec.ofNat 2 port, report := some r, served := s.att.served + 1 } }
def execAttestationReportDone (s : State) : Host.Outcome State Fault Refusal :=
  match s.att.queue with
  | [] => idle s
  | (port, nonce) :: _ => happens (s.serveReport port nonce)

/-! ### Appends (R139, R140) -/

/-- LQAPPEND's answer to a port. -/
def State.noteAppend (s : State) (port queue : Nat) (a : Append) : State :=
  let k := port * 64 + queue
  let old := kget AppendReply.none s.appends k
  let new : AppendReply :=
    match a with
    | .accepted lid => { lid := lid, res := 1, napp := old.napp + 1 }
    | .disabled => { lid := 0, res := 2, napp := old.napp + 1 }
    | .full => { lid := 0, res := 3, napp := old.napp + 1 }
  { s with appends := kset AppendReply.none s.appends k new }

def State.hostAppend (s : State) (port queue : Nat) (block : Word) : State :=
  let p := s.append queue block
  p.1.noteAppend port queue p.2

/-- LQAPPEND. -/
def execLqappend (port queue : Nat) (value : BitVec 64) (s : State) : Host.Outcome State Fault Refusal :=
  if queue ≥ 64 then idle s
  else atPort port s (s.ownerWrite port s.booted fun s => s.hostAppend port queue value)

/-! ### Translation, memory and tile-map settings -/

/-- A start of TLBSHOOT (R159). -/
def State.shoot (s : State) (x : Word) : State :=
  { s with cfg := { s.cfg with shootVpn := x.extractLsb' 0 41, shootNpm := x.extractLsb' 41 16, shootAll := x.getLsbD 57,
                               shootBusy := true } }
def execTlbshoot (port : Nat) (value : BitVec 64) (s : State) : Host.Outcome State Fault Refusal :=
  atPort port s (s.ownerWrite port (!s.cfg.shootBusy) fun s => s.shoot value)

/-- TLBSHOOT_ACK: every stable that is not lost has acknowledged. -/
def execTlbshootAck (s : State) : Host.Outcome State Fault Refusal :=
  let va := s.cfg.shootVpn.toNat * 65536
  let pages := s.cfg.shootNpm.toNat + 1
  let s' := s.invalidateTlbs s.cfg.shootAll va pages
  when (s.cfg.shootBusy && s.tlbQuiet s.cfg.shootAll va pages) s { s' with cfg := { s'.cfg with shootBusy := false } }

/-- TMAPSYNC: a write of 1 (R167). -/
def State.startSync (s : State) : State := { s with cfg := { s.cfg with sync := true } }
def execTmapsync (port : Nat) (s : State) : Host.Outcome State Fault Refusal :=
  atPort port s (s.ownerWrite port true State.startSync)

/-- TMAPSYNC_DONE: every stable's cache of tile-map entries is empty. -/
def State.dropTiles (s : State) : State :=
  (kkeys s.stables).foldl (fun s n => s.modStable n fun x => { x with tiles := [] }) s
def execTmapsyncDone (s : State) : Host.Outcome State Fault Refusal :=
  when s.cfg.sync s { s.dropTiles with cfg := { s.cfg with sync := false } }

/-- MEMCFG's fields are in range, and the loft fits its domains (R163). -/
def memcfgOk (x : Word) : Bool :=
  let lp := (x.extractLsb' 8 9).toNat
  match domainSide (x.extractLsb' 0 3).toNat with
  | none => false
  | some k => lp ≤ 256 && (x.extractLsb' 17 4).toNat ≤ 8 && (x.extractLsb' 32 32).toNat * 4096 ≤ k * k / 2 * (lp * 32 * mib)

/-- A slice's lines are given up: those with owned words go to its directory (R101, R125). -/
def State.emptySlices (s : State) (b : Nat) : State :=
  (s.barn b).l2.foldl
    (fun s p => (p.2.filter fun x => !x.loft && !(s.ownedWords x.tag).isEmpty).foldl (fun s x => s.enterDir b p.1 x.tag) s)
    (s.dropLines b fun _ => true)

/-- A change of RS zeroes the reservoir store (R106, R163), and the ways of the home slices that change their use hold no
lines: the slices' lines are given up (R101). -/
def State.zeroStore (s : State) : State :=
  let s := (kkeys s.barns).foldl (fun s b => (s.setBarn b { s.barn b with store := [] }).emptySlices b) s
  { s with poison := s.poison.filter fun p => p.1 < 2 ^ 63 || 2 ^ 31 ≤ (p.1 - 2 ^ 63) % 2 ^ 32 }

def State.setMemcfg (s : State) (x : Word) : State :=
  let rs := x.extractLsb' 17 4
  let s := if rs = s.cfg.rs then s else s.zeroStore
  { s with cfg := { s.cfg with kcode := x.extractLsb' 0 3, lp := x.extractLsb' 8 9, rs := rs, ls := x.extractLsb' 32 32 } }

/-- MEMCFG_WRITE. -/
def execMemcfgWrite (port : Nat) (value : BitVec 64) (s : State) : Host.Outcome State Fault Refusal :=
  atPort port s (s.ownerWrite port (s.booted && s.noGang && memcfgOk value) fun s => s.setMemcfg value)

/-! ### Pre-emption (R208, R209) -/

/-- PREEMPT_GO: a request for a launch that is neither queued nor resident has no effect. A group of the launch that stands at a
blocking point parks at once (R209). -/
def State.setPreempt (s : State) (k : Nat) (lid : BitVec 32) (go : Bool) : State :=
  let x : Preempt := { launch := lid, go := go, force := go && lid ≠ 0 && s.lidBusy lid }
  let s' := { s with preempt := s.preempt.set k x }
  if x.force then (s.gangs.map Prod.fst).foldl State.imageIfHeld (s'.parkHeld lid) else s'
def execPreemptGo (port k : Nat) (lid : BitVec 32) (s : State) : Host.Outcome State Fault Refusal :=
  if k ≥ 8 then idle s else atPort port s (s.ownerWrite port true fun s => s.setPreempt k lid true)

/-- PREEMPT_LIFT. -/
def execPreemptLift (port k : Nat) (s : State) : Host.Outcome State Fault Refusal :=
  if k ≥ 8 then idle s
  else
    let lid := (s.preempt.getD k { launch := 0, go := false, force := false }).launch
    atPort port s (s.ownerWrite port true fun s => s.setPreempt k lid false)

/-! ### TFDONE (R217) and the event ring (R218) -/

/-- The group parked with a translation request's SEQ, its address and lanes. -/
def State.parkedAt (s : State) (seq : BitVec 16) : Option (Nat × Word × BitVec 32) :=
  s.groups.findSome? fun p =>
    match p.2.standing with
    | .parked (.translation va q lanes) => if q = seq then some (p.1, va, lanes) else none
    | _ => none

/-- A write of TFDONE: 1 deny, 2 end, any other action a retry. -/
def State.tfdone (s : State) (seq : BitVec 16) (action : BitVec 2) : State :=
  let s := { s with cfg := { s.cfg with tfSeq := seq, tfAction := action } }
  match s.parkedAt seq with
  | none => s
  | some (k, va, lanes) =>
    if action = 1 then (s.modGroup k fun g => { g with deny := some (.permission, lanes, va) }).markWoken k
    else if action = 2 then
      let g := s.group k
      if g.r.taskId ≠ 0 then
        let s' := s.endTask k Cause.translation.code g.r.pc
        if g.r.depth = 0 then s' else s'.markWoken k
      else s.endGang (gangOf k) Cause.translation.code g.r.pc k
    else s.markWoken k
def execTfdoneRetry (port : Nat) (seq : BitVec 16) (s : State) : Host.Outcome State Fault Refusal :=
  atPort port s (s.ownerWrite port true fun s => s.tfdone seq 0)
def execTfdoneDeny (port : Nat) (seq : BitVec 16) (s : State) : Host.Outcome State Fault Refusal :=
  atPort port s (s.ownerWrite port true fun s => s.tfdone seq 1)
def execTfdoneEnd (port : Nat) (seq : BitVec 16) (s : State) : Host.Outcome State Fault Refusal :=
  atPort port s (s.ownerWrite port true fun s => s.tfdone seq 2)

/-- Waiting translation requests enter the ring while it has room. -/
def State.drainEvents : List Event → State → State
  | [], s => s
  | e :: es, s =>
    if s.evCount < 255 then State.drainEvents es { s.enterEvent e with evWaiting := es } else s

/-- A write of EVPTR: HEAD, and LOST where the write has a 1. -/
def State.setEvptr (s : State) (x : Word) : State :=
  let s := { s with evHead := x.extractLsb' 8 8, evLost := s.evLost && !x.getLsbD 16 }
  s.drainEvents s.evWaiting
def execEvptrHeadWrite (port : Nat) (value : BitVec 64) (s : State) : Host.Outcome State Fault Refusal :=
  atPort port s (s.ownerWrite port true fun s => s.setEvptr value)

/-! ### The loft (R105) -/

/-- An interval meets a queue's loft-map entry while a gang of a launch of that queue is resident (R164). -/
def State.loftBusy (s : State) (off n : Nat) : Bool :=
  s.gangs.any fun p =>
    let e := kget 0 s.loftmap (s.launch (lidOf p.1)).queue
    overlaps ((e.extractLsb' 0 32).toNat * 4096) ((e.extractLsb' 32 32).toNat * 4096) off n

/-- The poison of what an interval of the loft rewrites ends, in every domain's copy (R102). -/
def State.cleanseLoft (s : State) (off n : Nat) : State :=
  let k := s.loftSide
  let cells := (List.range n).flatMap fun i =>
    if (off + i) % 8 = 0 && i + 8 ≤ n then
      (List.range (24 / k * (24 / k))).map fun d =>
        let b := loftBarn k d (off + i)
        (b, loftKey b (loftPlace k (off + i)).2)
    else []
  if s.poison.isEmpty then s
  else { s with poison := cells.foldl (fun m c => kset false m c.2 (s.barn c.1).dead) s.poison }

/-- An accepted write: every domain copy, and no copy of its lines in any L1 or L2 slice; the lines it rewrites are poisoned no
longer (R102). -/
def State.writeLoft (s : State) (off : Nat) (bs : List Byte) : State :=
  let bs := bs.take (s.cfg.ls.toNat * 4096 - off)
  let keep := fun (l : Line) => !(l.loft && overlaps (64 * l.tag) 64 off bs.length)
  let s := (kkeys s.stalls).foldl (fun s t => s.modStall t fun st => { st with l1 := st.l1.filter keep }) s
  let s := (kkeys s.barns).foldl (fun s b => s.dropLines b fun x => x.loft && overlaps (64 * x.tag) 64 off bs.length) s
  { s.cleanseLoft off bs.length with loft := s.loft.writeN off bs }

/-- LOFT_WRITE: through the loft window at LOFTWIN × 1 GiB (R236). -/
def execLoftWrite (port off : Nat) (bytes : List (BitVec 8)) (s : State) : Host.Outcome State Fault Refusal :=
  if off / 2 ^ 30 ≠ s.cfg.loftwin.toNat || (off + bytes.length - 1) / 2 ^ 30 ≠ s.cfg.loftwin.toNat then idle s
  else atPort port s (s.ownerWrite port (!s.loftBusy off bytes.length) fun s => s.writeLoft off bytes)

/-! ### Debugging (R232) -/

/-- Change the debug control that DBGSEL selects. -/
def State.dbgSel (s : State) (f : DbgCtl → DbgCtl) : State :=
  let t := s.cfg.dbgStall.toNat
  s.setDbg t s.cfg.dbgSlot.toNat (f (kget DbgCtl.off (s.stall t).dbg s.cfg.dbgSlot.toNat))

/-- The group in the slot that DBGSEL selects. -/
def State.dbgGroup? (s : State) : Option Nat :=
  (s.groups.find? fun p => p.2.standing = .slot && p.2.slot = s.cfg.dbgSlot.toNat && !isCallable p.1 &&
    (s.gang (gangOf p.1)).stall = s.cfg.dbgStall.toNat).map Prod.fst

/-- A group halted at BRK goes on at the slot after it: BRK retires (R232, R282). -/
def State.passBrk (s : State) : State :=
  if (kget DbgCtl.off (s.stall s.cfg.dbgStall.toNat).dbg s.cfg.dbgSlot.toNat).atBrk then
    let s' := match s.dbgGroup? with
      | some k => s.modGroup k fun g => { g with r := { g.r with pc := g.succ }, ric := g.ric + 1 }
      | none => s
    s'.dbgSel fun d => { d with atBrk := false }
  else s

/-- DBGCTL's writable bits. -/
def State.setDbgctl (s : State) (att hreq step run : Bool) : State :=
  let d := kget DbgCtl.off (s.stall s.cfg.dbgStall.toNat).dbg s.cfg.dbgSlot.toNat
  let go := d.halted && (!att || run || step)
  let s := if go then s.passBrk else s
  s.dbgSel fun d => { d with att := att, hreq := hreq, step := step, run := run && att, halted := d.halted && att && !run && !step }

/-- The bits as they stand. -/
def State.dbgctl (s : State) : DbgCtl := kget DbgCtl.off (s.stall s.cfg.dbgStall.toNat).dbg s.cfg.dbgSlot.toNat

def execDbgctlAttach (port : Nat) (s : State) : Host.Outcome State Fault Refusal :=
  atPort port s (s.ownerWrite port true fun s => s.setDbgctl true s.dbgctl.hreq s.dbgctl.step s.dbgctl.run)
def execDbgctlHaltRequest (port : Nat) (s : State) : Host.Outcome State Fault Refusal :=
  atPort port s (s.ownerWrite port true fun s => s.setDbgctl s.dbgctl.att true s.dbgctl.step s.dbgctl.run)
def execDbgctlStep (port : Nat) (s : State) : Host.Outcome State Fault Refusal :=
  atPort port s (s.ownerWrite port true fun s => s.setDbgctl s.dbgctl.att s.dbgctl.hreq true s.dbgctl.run)
def execDbgctlRun (port : Nat) (s : State) : Host.Outcome State Fault Refusal :=
  atPort port s (s.ownerWrite port true fun s => s.setDbgctl s.dbgctl.att s.dbgctl.hreq s.dbgctl.step true)
def execDbgctlDetach (port : Nat) (s : State) : Host.Outcome State Fault Refusal :=
  atPort port s (s.ownerWrite port true fun s => s.setDbgctl false s.dbgctl.hreq s.dbgctl.step s.dbgctl.run)

/-- CE_COUNTER_CLEAR (R194). -/
def execCeCounterClear (port : Nat) (cls : CeClass) (place : Nat) (s : State) : Host.Outcome State Fault Refusal :=
  if place ≥ 288 then idle s else atPort port s (s.ownerWrite port true fun s => s.bumpCe cls place fun _ => 0)

end Sys2Proof.Machine
end

