-- ==== Sys2Proof/Machine/Clock.lean ====
section
/-!
DEFINITION. Time (R19, R191 to R193, R240): panel time, the first synchronisation of a stable and the steering of its offset,
the cycle and event counters of a stall.
-/

namespace Sys2Proof.Machine

/-- TIME_FIRST_SYNC: LOFF is measured within 2 ns, and LCNT goes on as it counts. At a stable that has been synchronised before
and holds no gang, it is the stable's restart: LCNT is new, from a release moment of its own, and GTIME goes on as it was
(R192). -/
def execTimeFirstSync (stable : Nat) (release : BitVec 64) (err : Int) (s : State) : Host.Outcome State Fault Refusal :=
  let x := s.stable stable
  let idleNow := s.gangs.all fun p => stableOf (s.runsOn p.1) != stable
  if x.synced then
    when (stable < 288 && idleNow && !x.lost && release.toNat ≤ s.ptime.toNat) s
      (s.setStable stable { x with release := some release })
  else
    when (stable < 288 && !x.lost && -2 ≤ err && err ≤ 2) s
      (s.setStable stable { x with ahead := BitVec.ofInt 64 err, synced := true })

/-- LOFF_ADJUST: toward PTIME by 1, upwards once in a tick, downwards once in 1,024 ticks and together with a tick (R192). -/
def execLoffAdjust (stable : Nat) (s : State) : Host.Outcome State Fault Refusal :=
  let x := s.stable stable
  let off := x.ahead.toInt
  if stable ≥ 288 || !x.synced || x.lost || x.lowering then idle s
  else if off < 0 && !x.raised then happens (s.setStable stable { x with ahead := x.ahead + 1, raised := true })
  else if 0 < off && lowerGap ≤ x.sinceLowered then happens (s.setStable stable { x with lowering := true })
  else idle s

/-- PANEL_TIME_TICK: PTIME rises by 1. -/
def execPanelTimeTick (s : State) : Host.Outcome State Fault Refusal := happens s.tick

/-! ### Counters (R193) -/

/-- A counter takes a cycle's count of its event; one that the owner has written in the cycle keeps the written value. -/
def Pm.count' (x : Pm) (n : Nat) : Pm :=
  if x.written then { x with written := false }
  else if x.en && x.event ≠ 0 then
    { x with count := x.count + BitVec.ofNat 48 n, ovf := x.ovf || 2 ^ 48 ≤ x.count.toNat + n }
  else x

/-- The count of an event in the present cycle: what the stall has noted, and for the two events that rest on timing, 3 and 4,
what the cycle is given beside it (log 75). -/
def State.eventCount (s : State) (stall : Nat) (counts : List Nat) (event : Nat) : Nat :=
  let st := s.stall stall
  match event with
  | 3 => if (st.runKey.toList ++ st.ages).any s.interlockedAt then 1 else min 1 (counts.getD 3 0)
  | 4 => kget 0 st.tally 4 + counts.getD 4 0
  | 13 => if (s.standing stall .slot).isEmpty then 0 else 1
  | e => kget 0 (s.stall stall).tally e

/-- The counters of a stall in a cycle: each rises by its event's count. -/
def State.counted (s : State) (counts : List Nat) (stall : Nat) : State :=
  let st := s.stall stall
  s.setStall stall { st with
    tally := [], pm := st.pm.map fun x => x.count' (s.eventCount stall counts x.event.toNat) }

/-- A cycle of one stall: CYC rises by 1, and each counter by its event's count in the cycle. -/
def State.cycled (s : State) (counts : List Nat) (stall : Nat) : State :=
  (s.counted counts stall).modStall stall fun st => { st with cyc := st.cyc + 1 }


/-- STALL_CYCLE. -/
def execStallCycle (stall : Nat) (counts : List Nat) (s : State) : Host.Outcome State Fault Refusal :=
  when (stall < 103680 && !(s.stall stall).lost) s (s.cycled counts stall)

end Sys2Proof.Machine
end

