-- ==== Sys2Proof/Machine/Convert.lean ====
section
/-!
DEFINITION. Major 0x25: CVT (R300), CVTD (R301) and VSCALE (R302).
-/

namespace Sys2Proof.Machine

/-- Element e of a lane (or pair) in a source type: an O4 element is decoded from its byte, and 0x88 raises POISON
(R63, R300). -/
def sourceElem (ts : ETy) (e : Nat) (x : Nat) : Except LaneFault Number :=
  if ts = .o4 then
    match o4Element (elem 8 (e / 2) x) (e % 2 = 1) with
    | some v => .ok (Number.ofInt v)
    | none => .error (LaneFault.plain .poison 0)
  else .ok (tyValue ts (elem ts.bits e x))

/-- One element converted to Td, or the lane's CVT_OVERFLOW (R60, R300). -/
def cvtElem (o : Slot) (e : Nat) (x : Nat) : Except LaneFault Nat :=
  match sourceElem o.srcTy e x with
  | .error f => .error f
  | .ok v =>
    match cvtTo o.ty o.rnd o.ovf v with
    | some y => .ok y
    | none => .error (LaneFault.plain .cvtOverflow 0)

/-- A narrow element widened to its lane: copies of the sign bit for S2 to S16, zeros otherwise (R300). -/
def widenElem (t : ETy) (y : Nat) : Nat := if t.signed && t.bits < 32 then wrapInt 32 (sext y t.bits) else y

/-- Write the lanes' results: no destination element is written when any lane has a cause (R60, R213). -/
def writeLanes (o : Slot) (s : State) (f : Nat → Except LaneFault Nat) : Eff := do
  let rs ← gatherLanes s.regs.active f
  pure (s.setRegs (rs.foldl (fun r p => r.setLane o.ty o.dst p.1 p.2) s.regs))

def coreCvt (o : Slot) (s : State) : Eff :=
  writeLanes o s fun l => (cvtElem o o.sel (laneOf o s.regs o.a o.srcTy l)).map (widenElem o.ty)
def execCvt (o : Slot) (s : State) := issueLogged (.cvt o) (coreCvt o) s

/-- The lane faults or values of a list of elements: the lowest cause of the lane (R213). -/
def allElems : List (Except LaneFault Nat) → Except LaneFault (List Nat)
  | [] => .ok []
  | x :: xs =>
    match x, allElems xs with
    | .ok y, .ok ys => .ok (y :: ys)
    | .ok _, .error f => .error f
    | .error f, .ok _ => .error f
    | .error f, .error g => .error (if g.cause.code < f.cause.code then g else f)

/-- CVTD packs the k elements of A, then the k of B (R301). -/
def coreCvtd (o : Slot) (s : State) : Eff :=
  let k := 32 / o.srcTy.bits
  writeLanes o s fun l =>
    let part (x : Opnd) := (List.range k).map fun e => cvtElem o e (laneOf o s.regs x o.srcTy l)
    (allElems (part o.a ++ part o.b)).map (packElems o.ty.bits)
def execCvtd (o : Slot) (s : State) := issueLogged (.cvtd o) (coreCvtd o) s

/-- VSCALE: a × 2^k rounded once, k = SEXT(b, n) (R302). -/
def coreVscale (o : Slot) (s : State) : Eff :=
  let r := s.regs
  let t := o.ty
  let m := tyFmt t
  let el (a b _ : Nat) : Nat := m.round o.rnd (Number.scale (sext b t.bits) (m.decode (m.negAbs o.negA o.absA a)))
  .ok (s.setRegs (r.mapLanes t o.dst fun l => mapElems t.bits el (laneOf o r o.a t l) (laneOf o r o.b t l) 0))
def execVscale (o : Slot) (s : State) := issueLogged (.vscale o) (coreVscale o) s

end Sys2Proof.Machine
end

