-- ==== Sys2Proof/Machine/LaneX.lean ====
section
/-!
DEFINITION. Majors 0x26 and 0x27: lane exchange (R303 to R306), votes and matches (R307), reductions and scans (R71, R72,
R308); and the queueing of an operation whose registers are written after issue (R75, R187).
-/

namespace Sys2Proof.Machine

/-! ### Lane exchange -/

/-- The element type of a lane exchange: 32-bit lanes or 64-bit pairs (R303). -/
def xTy (o : Slot) : ETy := if o.wid = 3 then .n64 else .n32
/-- Lane l of a vector source. -/
def xLane (o : Slot) (r : Regs) (n l : Nat) : Nat := if o.wid = 3 then (r.getVV n l).toNat else (r.getV n l).toNat
/-- The index operand, always a 32-bit value (R303). -/
def xIndex (o : Slot) (r : Regs) (x : Opnd) (l : Nat) : Nat := laneOf o r x .n32 l

/-- The source lane of a shuffle in a tile of width w, none outside the tile (R304). -/
def srcIndex (w l x : Nat) : Option Nat := if w ≤ x then none else some (l - l % w + x)
def srcXor (w l x : Nat) : Option Nat := if w ≤ x then none else some (l ^^^ x)
def srcUp (w l x : Nat) : Option Nat := if l % w < x then none else some (l - x)
def srcDown (w l x : Nat) : Option Nat := if w ≤ l % w + x then none else some (l + x)

/-- A shuffle: each active lane takes its source lane, or 0 or its own value outside the tile (R304). -/
def shuffle (src : Nat → Nat → Nat → Option Nat) (o : Slot) (s : State) : Eff :=
  let r := s.regs
  .ok (s.setRegs (r.mapLanes (xTy o) o.dst fun l =>
    match src r.tileWidth l (xIndex o r o.b l) with
    | some k => xLane o r o.a.num k
    | none => if o.bit34 then 0 else xLane o r o.a.num l))

def execShfl (o : Slot) (s : State) := issueLogged (.shfl o) (shuffle srcIndex o) s
def execShflx (o : Slot) (s : State) := issueLogged (.shflx o) (shuffle srcXor o) s
def execShflup (o : Slot) (s : State) := issueLogged (.shflup o) (shuffle srcUp o) s
def execShfldn (o : Slot) (s : State) := issueLogged (.shfldn o) (shuffle srcDown o) s
def execVbcast (o : Slot) (s : State) := issueLogged (.vbcast o) (shuffle srcIndex o) s

/-- A register of group number n of the issuing gang as GSHF reads it (R306): zero where there is none. -/
def gshfLane (o : Slot) (s : State) (n l : Nat) : Nat :=
  let k := groupKey (gangOf s.cur) n
  let va := o.a.num
  if k = s.cur then xLane o s.regs va l
  else
    match s.group? k with
    | none => 0
    | some g => if g.standing = .exited || g.vbudget ≤ va then 0 else xLane o g.r va l

/-- GSHF counts in LD and writes its destination after issue (R306). -/
def coreGshf (o : Slot) (s : State) : Eff :=
  let r := s.regs
  let g := (r.getS o.b.num).toNat % 16
  let value (l : Nat) : Nat :=
    match srcIndex r.tileWidth l (xIndex o r o.c l) with
    | some k => gshfLane o s g k
    | none => if o.bit34 then 0 else gshfLane o s g l
  let ws := r.active.flatMap fun l => laneWrites (xTy o) o.dst.num l (value l)
  if ws.isEmpty then .ok s else pushLd (Op.taken (opndRegs o.dst [.v] .lane o) ws) s
def execGshf (o : Slot) (s : State) := issueLogged (.gshf o) (coreGshf o) s

/-- VLANE ignores EXM and LPART (R305). -/
def coreVlane (o : Slot) (s : State) : Eff :=
  let r := s.regs
  let x := (scalarOf o r o.b).toNat % 32
  .ok (s.setRegs (r.setDst o.dst (BitVec.ofNat 64 (xLane o r o.a.num x))))
def execVlane (o : Slot) (s : State) := issueLogged (.vlane o) (coreVlane o) s

def coreVidx (o : Slot) (s : State) : Eff :=
  let r := s.regs
  .ok (s.setRegs (r.mapLanes .n32 o.dst fun l => xIndex o r o.b l + l % r.tileWidth))
def execVidx (o : Slot) (s : State) := issueLogged (.vidx o) (coreVidx o) s

/-! ### Votes and matches -/

/-- A lane's predicate (R307). -/
def predOf (r : Regs) (n l : Nat) : Bool := r.getV n l ≠ 0
/-- The active lanes of lane l's tile, in ascending number. -/
def tileActive (r : Regs) (l : Nat) : List Nat := r.active.filter fun k => k / r.tileWidth = l / r.tileWidth

def coreVote (all : Bool) (o : Slot) (s : State) : Eff :=
  let r := s.regs
  let n := o.a.num
  .ok (s.setRegs (r.mapLanes .n32 o.dst fun l =>
    let ks := tileActive r l
    if (if all then ks.all (predOf r n) else ks.any (predOf r n)) then 1 else 0))
def execVoteany (o : Slot) (s : State) := issueLogged (.voteany o) (coreVote false o) s
def execVoteall (o : Slot) (s : State) := issueLogged (.voteall o) (coreVote true o) s

def coreBallot (o : Slot) (s : State) : Eff :=
  let r := s.regs
  .ok (s.setRegs (r.setDst o.dst ((maskOf (r.active.filter (predOf r o.a.num))).setWidth 64)))
def execBallot (o : Slot) (s : State) := issueLogged (.ballot o) (coreBallot o) s

/-- The value lane l of a vector operand holds for a type. -/
def redLane (o : Slot) (r : Regs) (l : Nat) : Nat := laneOf o r o.a o.ty l

/-- MATCH writes a 32-bit mask, for either type (R307). -/
def coreMatch (o : Slot) (s : State) : Eff :=
  let r := s.regs
  .ok (s.setRegs (r.mapLanes .n32 o.dst fun l =>
    (maskOf ((tileActive r l).filter fun k => redLane o r k = redLane o r l)).toNat))
def execMatchLanes (o : Slot) (s : State) := issueLogged (.matchLanes o) (coreMatch o) s

/-! ### Reductions and scans -/

/-- Combine neighbours of one level of the tree (R71): a lone present node passes through. -/
def treeLevel (f : Nat → Nat → Nat) (pass : Nat → Nat) : List (Option Nat) → List (Option Nat)
  | a :: b :: rest =>
    (match a, b with
     | some x, some y => some (f x y)
     | some x, none => some (pass x)
     | none, some y => some (pass y)
     | none, none => none) :: treeLevel f pass rest
  | [a] => [a.map pass]
  | [] => []

/-- The root of the tree over a power-of-two tile, by levels (R71). -/
def treeRoot (f : Nat → Nat → Nat) (pass : Nat → Nat) : Nat → List (Option Nat) → Option Nat
  | 0, xs => (xs.head?).join
  | k + 1, xs => treeRoot f pass k (treeLevel f pass xs)

/-- The reduction of lane l's tile. -/
def tileReduce (f : Nat → Nat → Nat) (pass : Nat → Nat) (o : Slot) (r : Regs) (l : Nat) : Nat :=
  let w := r.tileWidth
  let base := l - l % w
  let leaves := (List.range w).map fun i => if r.exm.getLsbD (base + i) then some (redLane o r (base + i)) else none
  (treeRoot f pass (Nat.log2 w) leaves).getD 0

def reduce (f : ETy → Nat → Nat → Nat) (pass : Nat → Nat) (o : Slot) (s : State) : Eff :=
  let r := s.regs
  .ok (s.setRegs (r.mapLanes o.ty o.dst fun l => tileReduce (f o.ty) pass o r l))

def addWrap (t : ETy) (a b : Nat) : Nat := (a + b) % 2 ^ t.bits
def minOf (t : ETy) (a b : Nat) : Nat :=
  if t = .f32 then fmtF32.minCode a b else if extTy t b < extTy t a then b else a
def maxOf (t : ETy) (a b : Nat) : Nat :=
  if t = .f32 then fmtF32.maxCode a b else if extTy t a < extTy t b then b else a
def addF32 (mode : Nat) (a b : Nat) : Nat := fmtF32.round mode (Number.add mode (fmtF32.decode a) (fmtF32.decode b))
/-- A value that passes a float node alone: a NaN becomes canonical (R71). -/
def canonNat (a : Nat) : Nat := if (fmtF32.decode a).isNan then fmtF32.nan else a
def passFor (t : ETy) (a : Nat) : Nat := if t = .f32 then canonNat a else a

def execRedadd (o : Slot) (s : State) := issueLogged (.redadd o) (reduce addWrap id o) s
def execRedfadd (o : Slot) (s : State) := issueLogged (.redfadd o) (reduce (fun _ => addF32 o.rnd) canonNat o) s
def execRedmin (o : Slot) (s : State) := issueLogged (.redmin o) (reduce minOf (passFor o.ty) o) s
def execRedmax (o : Slot) (s : State) := issueLogged (.redmax o) (reduce maxOf (passFor o.ty) o) s

/-- The inclusive scan of the active lanes of a tile up to lane l, in ascending order (R72, R308). -/
def scanTo (f : Nat → Nat → Nat) (pass : Nat → Nat) (o : Slot) (r : Regs) (l : Nat) : Nat :=
  match (tileActive r l).filter (· ≤ l) with
  | [] => 0
  | k :: ks => ks.foldl (fun acc j => f (redLane o r j) acc) (pass (redLane o r k))

def scan (f : ETy → Nat → Nat → Nat) (pass : Nat → Nat) (o : Slot) (s : State) : Eff :=
  let r := s.regs
  .ok (s.setRegs (r.mapLanes o.ty o.dst fun l => scanTo (f o.ty) pass o r l))
def execScanadd (o : Slot) (s : State) := issueLogged (.scanadd o) (scan addWrap id o) s
def execScanfadd (o : Slot) (s : State) := issueLogged (.scanfadd o) (scan (fun _ => addF32 o.rnd) canonNat o) s

end Sys2Proof.Machine
end

