-- ==== Sys2Proof/Machine/Scalar.lean ====
section
/-!
DEFINITION. Majors 0x00 to 0x02: NOP and BRK (R282), the scalar integer operations (R271 to R274), and the moves and
special-register accesses (R275, R276).
-/

namespace Sys2Proof.Machine

/-- A scalar operation with a type: sd := EXT(f(a, b, c) mod 2ⁿ, n), where f works on the operands as 64-bit patterns
(R271). -/
def scalarOp (f : ETy → Word → Word → Word → Int) (o : Slot) (s : State) : Eff :=
  let r := s.regs
  let x := f o.ty (scalarTyOf o r o.a) (scalarTyOf o r o.b) (scalarTyOf o r o.c)
  .ok (s.setRegs (r.setDst o.dst (toScalar o.ty x)))

/-- An operation on the extended operands (R271). -/
def extOp (f : Int → Int → Int) (t : ETy) (a b _ : Word) : Int := f (extTy t a.toNat) (extTy t b.toNat)
/-- An operation on the n-bit patterns. -/
def patOp (f : Nat → Nat → Nat → Int) (t : ETy) (a b _ : Word) : Int :=
  f t.bits (a.toNat % 2 ^ t.bits) (b.toNat % 2 ^ t.bits)
/-- A shift or rotate: the count is the whole 64-bit operand (R272). -/
def shiftOp (f : Nat → Nat → Nat → Nat) (t : ETy) (a b _ : Word) : Int := f t.bits a.toNat b.toNat

/-- A division: a zero divisor raises DIVIDE and nothing is written (R273). -/
def divideOp (f : Int → Int → Int) (o : Slot) (s : State) : Eff :=
  if extTy o.ty (scalarTyOf o s.regs o.b).toNat = 0 then trapNow .divide else scalarOp (extOp f) o s

def mulHigh (t : ETy) (a b _ : Word) : Int := extTy t a.toNat * extTy t b.toNat / 2 ^ t.bits

def execNop (o : Slot) (s : State) := issueLogged (.nop o) (fun s => .ok s) s

/-- BRK with a debugger attached halts before it retires; a resumed group retires it (R232, R282). -/
def coreBrk (s : State) : Eff :=
  let d := s.myDbg
  if d.atBrk then .ok (s.setDbg s.myStall s.me.slot { d with atBrk := false })
  else trapNow .debug
def execBrk (o : Slot) (s : State) := issueLogged (.brk o) coreBrk s

def execAdd (o : Slot) (s : State) := issueLogged (.add o) (scalarOp (extOp (· + ·)) o) s
def execSub (o : Slot) (s : State) := issueLogged (.sub o) (scalarOp (extOp (· - ·)) o) s
def execMul (o : Slot) (s : State) := issueLogged (.mul o) (scalarOp (extOp (· * ·)) o) s
def execMulh (o : Slot) (s : State) := issueLogged (.mulh o) (scalarOp mulHigh o) s
def execMulhn (o : Slot) (s : State) := issueLogged (.mulhn o) (scalarOp mulHigh o) s
def execDiv (o : Slot) (s : State) := issueLogged (.div o) (divideOp divT o) s
def execDivn (o : Slot) (s : State) := issueLogged (.divn o) (divideOp divT o) s
def execRem (o : Slot) (s : State) := issueLogged (.rem o) (divideOp remT o) s
def execRemn (o : Slot) (s : State) := issueLogged (.remn o) (divideOp remT o) s
def execMin (o : Slot) (s : State) := issueLogged (.min o) (scalarOp (extOp fun a b => if b < a then b else a) o) s
def execMax (o : Slot) (s : State) := issueLogged (.max o) (scalarOp (extOp fun a b => if a < b then b else a) o) s
def execMinn (o : Slot) (s : State) := issueLogged (.minn o) (scalarOp (extOp fun a b => if b < a then b else a) o) s
def execMaxn (o : Slot) (s : State) := issueLogged (.maxn o) (scalarOp (extOp fun a b => if a < b then b else a) o) s
def execAnd (o : Slot) (s : State) := issueLogged (.and o) (scalarOp (patOp fun _ a b => (a &&& b : Nat)) o) s
def execOr (o : Slot) (s : State) := issueLogged (.or o) (scalarOp (patOp fun _ a b => (a ||| b : Nat)) o) s
def execXor (o : Slot) (s : State) := issueLogged (.xor o) (scalarOp (patOp fun _ a b => (a ^^^ b : Nat)) o) s
def execAndn (o : Slot) (s : State) :=
  issueLogged (.andn o) (scalarOp (patOp fun n a b => (a &&& notN n b : Nat)) o) s
def execShl (o : Slot) (s : State) := issueLogged (.shl o) (scalarOp (shiftOp shlN) o) s
def execShr (o : Slot) (s : State) := issueLogged (.shr o) (scalarOp (shiftOp shrN) o) s
def execSar (o : Slot) (s : State) := issueLogged (.sar o) (scalarOp (shiftOp sarN) o) s
def execRol (o : Slot) (s : State) := issueLogged (.rol o) (scalarOp (shiftOp rolN) o) s
def execRor (o : Slot) (s : State) := issueLogged (.ror o) (scalarOp (shiftOp rorN) o) s
def execClz (o : Slot) (s : State) := issueLogged (.clz o) (scalarOp (fun t a _ _ => (clzN t.bits a.toNat : Nat)) o) s
def execCtz (o : Slot) (s : State) := issueLogged (.ctz o) (scalarOp (fun t a _ _ => (ctzN t.bits a.toNat : Nat)) o) s
def execPopc (o : Slot) (s : State) := issueLogged (.popc o) (scalarOp (fun t a _ _ => (popN t.bits a.toNat : Nat)) o) s
def execBrev (o : Slot) (s : State) :=
  issueLogged (.brev o) (scalarOp (fun t a _ _ => (brevN t.bits a.toNat : Nat)) o) s
def execBfx (o : Slot) (s : State) :=
  issueLogged (.bfx o) (scalarOp (fun t a b _ => (bfxN false t.bits a.toNat b.toNat : Nat)) o) s
def execBfxs (o : Slot) (s : State) :=
  issueLogged (.bfxs o) (scalarOp (fun t a b _ => (bfxN true t.bits a.toNat b.toNat : Nat)) o) s
def execBfi (o : Slot) (s : State) :=
  issueLogged (.bfi o) (scalarOp (fun t a b c => (bfiN t.bits a.toNat b.toNat c.toNat : Nat)) o) s
/-- SEL tests all 64 bits of C (R271). -/
def execSel (o : Slot) (s : State) :=
  issueLogged (.sel o) (scalarOp (fun t a b c => if c ≠ 0 then extTy t a.toNat else extTy t b.toNat) o) s
def execCmp (o : Slot) (s : State) :=
  issueLogged (.cmp o)
    (scalarOp (fun t a b _ => if condInt o.cond (extTy t a.toNat) (extTy t b.toNat) then 1 else 0) o) s
/-- LEA: a + b × 2^k with k = IMM (R271). -/
def execLea (o : Slot) (s : State) :=
  issueLogged (.lea o) (scalarOp (extOp fun a b => a + b * 2 ^ o.imm.toNat) o) s

/-- MOVI: the 50 bits of MOD and IMM, sign-extended (R257, R275). -/
def moviValue (o : Slot) : Word := (o.mod ++ o.imm).signExtend 64
def execMovi (o : Slot) (s : State) :=
  issueLogged (.movi o) (fun s => .ok (s.setRegs (s.regs.setDst o.dst (moviValue o)))) s
def execMov (o : Slot) (s : State) :=
  issueLogged (.mov o) (fun s => .ok (s.setRegs (s.regs.setDst o.dst (s.regs.getS o.a.num)))) s

/-- The index checks of R77: a missing register, then a supervisor index from user mode. -/
def specialCheck (s : State) (idx : Nat) : Except Stop Unit :=
  if (s.special s.cur idx).isNone then trapNow .illegalOp
  else need (idx < 32 || s.regs.sup) .privilege

def coreSrd (o : Slot) (s : State) : Eff := do
  specialCheck s o.a.num
  pure (s.setRegs (s.regs.setDst o.dst ((s.special s.cur o.a.num).getD 0)))
def execSrd (o : Slot) (s : State) := issueLogged (.srd o) (coreSrd o) s

/-- SWR: an LPART value of 5 to 7 raises ILLEGAL_OP with nothing written (R276). -/
def coreSwr (o : Slot) (s : State) : Eff := do
  specialCheck s o.dst.num
  let x := s.regs.getS o.a.num
  need (!(o.dst.num = 1 && 5 ≤ (x.extractLsb' 0 3).toNat)) .illegalOp
  pure (s.setRegs (s.regs.writeSpecial o.dst.num x))
def execSwr (o : Slot) (s : State) := issueLogged (.swr o) (coreSwr o) s

end Sys2Proof.Machine
end

