-- ==== Sys2Proof/Machine/VecFloat.lean ====
section
/-!
DEFINITION. Majors 0x20 to 0x22: binary32 arithmetic (R291, R292), the special functions (R293, R294), and packed 16-bit
floats (R295), and SCACC (R70, R334).
-/

namespace Sys2Proof.Machine

/-- Apply an element operation to every active lane (R290); f takes the type's format and the three elements after the
NA bits of A and B (R261). -/
def floatOp (f : FFmt → Nat → Nat → Nat → Nat) (o : Slot) (s : State) : Eff :=
  let r := s.regs
  let t := o.ty
  let m := tyFmt t
  let el (a b c : Nat) : Nat := f m (m.negAbs o.negA o.absA a) (m.negAbs o.negB o.absB b) c
  .ok (s.setRegs (r.mapLanes t o.dst fun l =>
    mapElems t.bits el (laneOf o r o.a t l) (laneOf o r o.b t l) (laneOf o r o.c t l)))

def elAdd (mode : Nat) (m : FFmt) (a b _ : Nat) : Nat := m.round mode (Number.add mode (m.decode a) (m.decode b))
def elSub (mode : Nat) (m : FFmt) (a b _ : Nat) : Nat := m.round mode (Number.add mode (m.decode a) (m.decode b).neg)
def elMul (mode : Nat) (m : FFmt) (a b _ : Nat) : Nat := m.round mode (Number.mul (m.decode a) (m.decode b))
/-- One rounding of the exact a × b + c (R291). -/
def elFma (mode : Nat) (m : FFmt) (a b c : Nat) : Nat :=
  m.round mode (Number.add mode (Number.mul (m.decode a) (m.decode b)) (m.decode c))
def elMin (m : FFmt) (a b _ : Nat) : Nat := m.minCode a b
def elMax (m : FFmt) (a b _ : Nat) : Nat := m.maxCode a b
def elCmp (cond : Nat) (m : FFmt) (a b _ : Nat) : Nat := if condNum cond (m.decode a) (m.decode b) then 1 else 0
def elRint (mode : Nat) (m : FFmt) (a _ _ : Nat) : Nat := m.toIntegral mode a
/-- The class of a binary32 code (R292). -/
def elClass (m : FFmt) (a _ _ : Nat) : Nat :=
  let neg := a.testBit (m.bits - 1)
  let mag := a % 2 ^ (m.bits - 1)
  if m.inf = some mag then (if neg then 1 else 2 ^ 7)
  else if m.maxFin < mag then (if mag.testBit (m.frac - 1) then 2 ^ 9 else 2 ^ 8)
  else if mag = 0 then (if neg then 2 ^ 3 else 2 ^ 4)
  else if mag < 2 ^ m.frac then (if neg then 2 ^ 2 else 2 ^ 5)
  else if neg then 2 else 2 ^ 6
/-- A special function, rounded once (R293). -/
def elFn (mode : Nat) (f : Number → Number) (m : FFmt) (a _ _ : Nat) : Nat := m.round mode (f (m.decode a))

def execFadd (o : Slot) (s : State) := issueLogged (.fadd o) (floatOp (elAdd o.rnd) o) s
def execFsub (o : Slot) (s : State) := issueLogged (.fsub o) (floatOp (elSub o.rnd) o) s
def execFmul (o : Slot) (s : State) := issueLogged (.fmul o) (floatOp (elMul o.rnd) o) s
def execFma (o : Slot) (s : State) := issueLogged (.fma o) (floatOp (elFma o.rnd) o) s
def execFmin (o : Slot) (s : State) := issueLogged (.fmin o) (floatOp elMin o) s
def execFmax (o : Slot) (s : State) := issueLogged (.fmax o) (floatOp elMax o) s
def execFcmp (o : Slot) (s : State) := issueLogged (.fcmp o) (floatOp (elCmp o.cond) o) s
def execFclass (o : Slot) (s : State) := issueLogged (.fclass o) (floatOp elClass o) s
def execFrint (o : Slot) (s : State) := issueLogged (.frint o) (floatOp (elRint o.rnd) o) s
def execFrcp (o : Slot) (s : State) := issueLogged (.frcp o) (floatOp (elFn 0 fnRcp) o) s
def execFrsq (o : Slot) (s : State) := issueLogged (.frsq o) (floatOp (elFn 0 fnRsq) o) s
def execFsqrt (o : Slot) (s : State) := issueLogged (.fsqrt o) (floatOp (elFn o.rnd fnSqrt) o) s
def execFexp2 (o : Slot) (s : State) := issueLogged (.fexp2 o) (floatOp (elFn 0 fnExp2) o) s
def execFlog2 (o : Slot) (s : State) := issueLogged (.flog2 o) (floatOp (elFn 0 fnLog2) o) s
def execFsinp (o : Slot) (s : State) := issueLogged (.fsinp o) (floatOp (elFn 0 fnSinPi) o) s
def execFcosp (o : Slot) (s : State) := issueLogged (.fcosp o) (floatOp (elFn 0 fnCosPi) o) s
def execHadd2 (o : Slot) (s : State) := issueLogged (.hadd2 o) (floatOp (elAdd o.rnd) o) s
def execHmul2 (o : Slot) (s : State) := issueLogged (.hmul2 o) (floatOp (elMul o.rnd) o) s
def execHfma2 (o : Slot) (s : State) := issueLogged (.hfma2 o) (floatOp (elFma o.rnd) o) s
def execHmin2 (o : Slot) (s : State) := issueLogged (.hmin2 o) (floatOp elMin o) s
def execHmax2 (o : Slot) (s : State) := issueLogged (.hmax2 o) (floatOp elMax o) s
def execHcmp2 (o : Slot) (s : State) := issueLogged (.hcmp2 o) (floatOp (elCmp o.cond) o) s

end Sys2Proof.Machine
end

