-- ==== Sys2Proof/Machine/VecInt.lean ====
section
/-!
DEFINITION. Majors 0x23 and 0x24: vector integer arithmetic (R296, R297) and the bit operations (R298, R299).
-/

namespace Sys2Proof.Machine

/-- Apply an element operation of the type's width to every active lane (R290). -/
def intOp (f : ETy → Nat → Nat → Nat → Nat) (o : Slot) (s : State) : Eff :=
  let r := s.regs
  let t := o.ty
  .ok (s.setRegs (r.mapLanes t o.dst fun l =>
    mapElems t.bits (f t) (laneOf o r o.a t l) (laneOf o r o.b t l) (laneOf o r o.c t l)))

/-- An operation on the extended elements, written modulo 2ⁿ (R296). -/
def extElem (f : Int → Int → Int → Int) (t : ETy) (a b c : Nat) : Nat :=
  wrapInt t.bits (f (extTy t a) (extTy t b) (extTy t c))

def execVadd (o : Slot) (s : State) := issueLogged (.vadd o) (intOp (extElem fun a b _ => a + b) o) s
def execVsub (o : Slot) (s : State) := issueLogged (.vsub o) (intOp (extElem fun a b _ => a - b) o) s
def execVmul (o : Slot) (s : State) := issueLogged (.vmul o) (intOp (extElem fun a b _ => a * b) o) s
def execVmulh (o : Slot) (s : State) :=
  issueLogged (.vmulh o) (intOp (extElem fun a b _ => a * b / 2 ^ o.ty.bits) o) s
def execVmad (o : Slot) (s : State) := issueLogged (.vmad o) (intOp (extElem fun a b c => a * b + c) o) s
def execVmin (o : Slot) (s : State) := issueLogged (.vmin o) (intOp (extElem fun a b _ => if b < a then b else a) o) s
def execVmax (o : Slot) (s : State) := issueLogged (.vmax o) (intOp (extElem fun a b _ => if a < b then b else a) o) s
def execVand (o : Slot) (s : State) := issueLogged (.vand o) (intOp (fun _ a b _ => a &&& b) o) s
def execVor (o : Slot) (s : State) := issueLogged (.vor o) (intOp (fun _ a b _ => a ||| b) o) s
def execVxor (o : Slot) (s : State) := issueLogged (.vxor o) (intOp (fun _ a b _ => a ^^^ b) o) s
def execVshl (o : Slot) (s : State) := issueLogged (.vshl o) (intOp (fun t a b _ => shlN t.bits a b) o) s
def execVshr (o : Slot) (s : State) := issueLogged (.vshr o) (intOp (fun t a b _ => shrN t.bits a b) o) s
def execVsar (o : Slot) (s : State) := issueLogged (.vsar o) (intOp (fun t a b _ => sarN t.bits a b) o) s
def execVcmp (o : Slot) (s : State) :=
  issueLogged (.vcmp o) (intOp (extElem fun a b _ => if condInt o.cond a b then 1 else 0) o) s
def execVsel (o : Slot) (s : State) := issueLogged (.vsel o) (intOp (fun _ a b c => if c ≠ 0 then a else b) o) s
def execVadds (o : Slot) (s : State) := issueLogged (.vadds o) (intOp (extElem fun a b _ => satInt o.ty (a + b)) o) s
def execVclz (o : Slot) (s : State) := issueLogged (.vclz o) (intOp (fun t a _ _ => clzN t.bits a) o) s
def execVctz (o : Slot) (s : State) := issueLogged (.vctz o) (intOp (fun t a _ _ => ctzN t.bits a) o) s
def execVffs (o : Slot) (s : State) := issueLogged (.vffs o) (intOp (fun t a _ _ => ffsN t.bits a) o) s
def execVpopc (o : Slot) (s : State) := issueLogged (.vpopc o) (intOp (fun t a _ _ => popN t.bits a) o) s
def execVbrev (o : Slot) (s : State) := issueLogged (.vbrev o) (intOp (fun t a _ _ => brevN t.bits a) o) s
def execVbfx (o : Slot) (s : State) :=
  issueLogged (.vbfx o) (intOp (fun t a b _ => bfxN t.signed t.bits a b) o) s
def execVbfi (o : Slot) (s : State) := issueLogged (.vbfi o) (intOp (fun t a b c => bfiN t.bits a b c) o) s

end Sys2Proof.Machine
end

