-- ==== Sys2Proof/Machine/Window.lean ====
section
/-!
DEFINITION. REGISTER_WRITE: a host's aligned 8-byte write to a management register of BAR0 (R235, with the field maps of
R138, R155, R163 to R167, R199, R208, R217, R218, R232, R237, R239, R243 to R246) or, at an offset from 0x2000_0000 on, to the
state aperture BAR4 (R193, R232, R236). Bits with no register discard their writes.
-/

namespace Sys2Proof.Machine

/-! ### Single registers -/

/-- PORTSTAT's W1C bits (R237). -/
def State.setPortstat (s : State) (port : Nat) (x : Word) : State :=
  let p := s.port port
  s.setPort port { p with denied := p.denied && !x.getLsbD 0, clost := p.clost && !x.getLsbD 1,
                          refused := p.refused && !x.getLsbD 2 }

/-- One of the port's four nonce words (R245). -/
def State.setNonce (s : State) (port i : Nat) (x : Word) : State :=
  let p := s.port port
  let shift := 64 * i
  s.setPort port { p with nonce := (p.nonce &&& ~~~((BitVec.allOnes 64).setWidth 256 <<< shift)) ||| (x.setWidth 256 <<< shift) }

/-- OWNCTL as one write: the owner's RELEASE, or its offer; a claim and an acceptance by any port (R237, R239, R240). The owner is
the port that owns the panel before the write. -/
def State.setOwnctl (s : State) (port : Nat) (x : Word) : State :=
  let any := x.getLsbD 4 || x.getLsbD 8
  let claimed := if x.getLsbD 4 then s.claimOwner port else s
  let s1 := if x.getLsbD 8 then claimed.acceptOffer port else claimed
  if s.owns port then
    if x.getLsbD 9 then s1.disownIf port
    else if s1.owns port then { s1 with own := { s1.own with hport := x.extractLsb' 5 2, hreq := x.getLsbD 7 } }
    else s1
  else if any then s1
  else s1.deniedAt port

/-- PTROOT (R155). -/
def State.setPtroot (s : State) (x : Word) : State :=
  { s with cfg := { s.cfg with ptEn := x.getLsbD 0, ptRoot := x.extractLsb' 19 33 } }

/-- TMAPBASE and TMAPDIM (R165). -/
def State.setTmapbase (s : State) (x : Word) : State :=
  { s with cfg := { s.cfg with tmapBase := x &&& 0x000FFFFFFFFFFFF8#64 } }
def State.setTmapdim (s : State) (x : Word) : State :=
  { s with cfg := { s.cfg with tmwm := x.extractLsb' 0 8, tmhm := x.extractLsb' 8 8, rppm := x.extractLsb' 16 4,
                               slotsm := x.extractLsb' 20 2, tmapEn := x.getLsbD 22 } }

def State.setStarve (s : State) (x : Word) : State := { s with cfg := { s.cfg with starve := x.extractLsb' 0 16 } }
def State.setLoftwin (s : State) (x : Word) : State := { s with cfg := { s.cfg with loftwin := x } }
def State.setDbgsel (s : State) (x : Word) : State :=
  { s with cfg := { s.cfg with dbgStall := x.extractLsb' 0 17, dbgSlot := x.extractLsb' 17 4 } }

/-- LQCFG (R138). -/
def State.setLqcfg (s : State) (q : Nat) (x : Word) : State :=
  s.setQueue q { s.queue q with prio := x.extractLsb' 0 2, en := x.getLsbD 2, quantum := x.extractLsb' 8 24 }
/-- LQSTAT's W1C bits (R138). -/
def State.setLqstat (s : State) (q : Nat) (x : Word) : State :=
  let y := s.queue q
  s.setQueue q { y with full := y.full && !x.getLsbD 32, off := y.off && !x.getLsbD 33, rej := y.rej && !x.getLsbD 34 }

/-- A loft map entry may be written: its queue is empty and no gang of its launches is resident (R164). -/
def State.loftEntryFree (s : State) (q : Nat) : Bool :=
  (s.queue q).entries.isEmpty && !s.gangs.any fun p => (s.launch (lidOf p.1)).queue = q
def State.setLoftmap (s : State) (q : Nat) (x : Word) : State := { s with loftmap := kset 0 s.loftmap q x }

/-- PLCFG (R246): a link that is no longer enabled is down. -/
def State.setPlcfg (s : State) (l : Nat) (x : Word) : State :=
  let s := s.setLink l { s.link l with en := x.getLsbD 0, inb := x.getLsbD 1 }
  if x.getLsbD 0 then s else s.dropLink l

/-- Bytes of the loader buffer (R244). -/
def State.setBuffer (s : State) (off : Nat) (x : Word) : State :=
  { s with loader := { s.loader with buffer := s.loader.buffer.writeN off (leBytes 8 x.toNat) } }

/-! ### The state aperture (R236) -/

/-- The halted group in a slot of a logical stall (R232). -/
def State.haltedGroup (s : State) (stall slot : Nat) : Option Nat :=
  if (kget DbgCtl.off (s.stall stall).dbg slot).halted then
    (s.groups.find? fun p => p.2.standing = .slot && p.2.slot = slot && !isCallable p.1 &&
      (s.gang (gangOf p.1)).stall = stall).map Prod.fst
  else none

/-- A special register as the window writes it: LPART keeps to the codes it has (R79). -/
def Regs.windowSpecial (r : Regs) (idx : Nat) (x : Word) : Regs :=
  match idx with
  | 1 => if (x.extractLsb' 0 3).toNat ≤ 4 then r.writeSpecial 1 x else r
  | i => r.writeSpecial i x

/-- Eight bytes of a group slot's area. -/
def Regs.windowWrite (r : Regs) (off : Nat) (x : Word) : Regs :=
  if off < 0x200 then r.setS (off / 8) x
  else if off < 0x300 then r.windowSpecial ((off - 0x200) / 8) x
  else if off < 0x328 then r.windowSpecial (32 + (off - 0x300) / 8) x
  else if off = 0x328 then { r with sup := x.getLsbD 0 }
  else if off = 0x330 then { r with pc := x }
  else if 0x400 ≤ off && off < 0x2400 then
    let n := (off - 0x400) / 128
    let l := (off - 0x400) % 128 / 4
    (r.setV n l (x.extractLsb' 0 32)).setV n (l + 1) (x.extractLsb' 32 32)
  else r

/-- A write of a halted group's registers; a new PC is a resumption, at a slot that is no longer the BRK. -/
def State.windowGroup (s : State) (stall slot off : Nat) (x : Word) : State :=
  match s.haltedGroup stall slot with
  | none => s
  | some k =>
    let s := s.modGroup k fun g => { g with r := g.r.windowWrite off x }
    if off = 0x330 then
      let d := kget DbgCtl.off (s.stall stall).dbg slot
      (s.modGroup k fun g => { g with transferFrom := none }).setDbg stall slot { d with atBrk := false }
    else s

/-- PMCTLk; a reserved event code is stored as 0 (R193). -/
def Pm.setCtl (p : Pm) (x : Word) : Pm :=
  let e := x.extractLsb' 0 5
  { p with event := if e.toNat ≤ 13 then e else 0, en := x.getLsbD 5, ovf := p.ovf && !x.getLsbD 6 }
/-- The counter file: PMCTL0–7, then PMCNT0–7. -/
def State.windowPm (s : State) (stall i : Nat) (x : Word) : State :=
  s.modStall stall fun st =>
    { st with pm := (List.range st.pm.length).zip st.pm |>.map fun p =>
        if p.1 = i then p.2.setCtl x else if p.1 + 8 = i then { p.2 with count := x.extractLsb' 0 48, written := true } else p.2 }

/-- A write through BAR4: the loft window, a halted group slot (R237), the counter file (R193). Any other write of the owner is
discarded, which REFUSED shows (log 50); one beyond BAR4's 256 GiB completes as Unsupported Request (R233, R234). -/
def State.apertureWrite (s : State) (port off : Nat) (x : Word) : State :=
  if 2 ^ 38 ≤ off then s.answer port none
  else if 0x3800000000 ≤ off && off < 0x3840000000 then
    let o := s.cfg.loftwin.toNat * 2 ^ 30 + (off - 0x3800000000)
    s.ownerWrite port (!s.loftBusy o 8) fun s => s.writeLoft o (leBytes 8 x.toNat)
  else
    let t := off / 0x100000
    let y := off % 0x100000
    let slot := (y - 0x40000) / 0x4000
    let inSlot := 0x40000 ≤ y && y < 0x80000 && (s.haltedGroup t slot).isSome
    let inPm := 0x80508 ≤ y && y < 0x80588
    s.ownerWrite port (t < 103680 && (inSlot || inPm)) fun s =>
      if inSlot then s.windowGroup t slot (y % 0x4000) x else s.windowPm t ((y - 0x80508) / 8) x

/-! ### BAR0 -/

/-- The registers of 0x1000 to 0x104F, 8 bytes each. -/
def State.settingWrite (s : State) (port i : Nat) (x : Word) : State :=
  match i with
  | 0 => s.ownerWrite port (s.booted && s.noGang) fun s => s.setPtroot x
  | 1 => s.ownerWrite port (s.booted && s.noGang && memcfgOk x) fun s => s.setMemcfg x
  | 2 => s.ownerWrite port s.noGang fun s => s.setTmapbase x
  | 3 => s.ownerWrite port s.noGang fun s => s.setTmapdim x
  | 4 => s.ownerWrite port true fun s => if x.getLsbD 0 then s.startSync else s
  | 5 => s.ownerWrite port (!s.cfg.shootBusy) fun s => s.shoot x
  | 6 => s.ownerWrite port true fun s => s.setStarve x
  | 7 => s.ownerWrite port true fun s => s.tfdone (x.extractLsb' 0 16) (x.extractLsb' 16 2)
  | 8 => s.ownerWrite port true fun s => s.setEvptr x
  | _ => s.ownerWrite port true fun s => s.setLoftwin x

/-- The registers of launch queue q. -/
def State.queueWrite (s : State) (port q i : Nat) (x : Word) : State :=
  match i with
  | 0 => s.ownerWrite port (s.booted && (s.queue q).entries.isEmpty) fun s => s.setLqcfg q x
  | 1 => s.ownerWrite port true fun s => s.setLqstat q x
  | 2 => s.ownerWrite port true id
  | _ => s.ownerWrite port s.booted fun s => s.hostAppend port q x

/-- The registers of panel link l. -/
def State.linkWrite (s : State) (port l i : Nat) (x : Word) : State :=
  match i with
  | 0 => s.ownerWrite port true fun s => s.setPlcfg l x
  | 1 => s.ownerWrite port true id
  | 2 => s.ownerWrite port true fun s => s.setLink l { s.link l with iwbase := x }
  | _ => s.ownerWrite port true fun s => s.setLink l { s.link l with iwlen := x }

/-- The counters that a stable's or a barn's block holds (R194). -/
def ceAt (barn : Bool) (i : Nat) : Option CeClass :=
  match barn, i with
  | false, 2 => some .sram
  | false, 3 => some .fetch
  | true, 0 => some .l2
  | true, 1 => some .dram
  | true, 2 => some .link
  | _, _ => none

def State.ceWrite (s : State) (port : Nat) (barn : Bool) (place i : Nat) : State :=
  match ceAt barn i with
  | some cls => s.ownerWrite port true fun s => s.bumpCe cls place fun _ => 0
  | none => s.ownerWrite port true id

/-- The low registers. -/
def State.lowWrite (s : State) (port off : Nat) (x : Word) : State :=
  if off = 0x08 then s.setOwnctl port x
  else if off = 0x10 then s.ownerWrite port true fun s => s.setPortstat port x
  else if off = 0x18 then s.ownerWrite port true fun s => if x.getLsbD 0 then s.coldBoot else s
  else if off = 0x20 then s.ownerWrite port true fun s => if x.getLsbD 0 then s.go else s
  else if 0x38 ≤ off && off < 0x58 then s.setNonce port ((off - 0x38) / 8) x
  else if off = 0x58 then if x.getLsbD 0 then s.askReport port else s
  else s.ownerWrite port true id

/-- A write of BAR0 by offset (R235). -/
def State.windowWrite (s : State) (port off : Nat) (x : Word) : State :=
  if off < 0x1000 then s.lowWrite port off x
  else if off < 0x1050 then s.settingWrite port ((off - 0x1000) / 8) x
  else if 0x1080 ≤ off && off < 0x10C0 then
    s.ownerWrite port true fun s => s.setPreempt ((off - 0x1080) / 8) (x.extractLsb' 0 32) (x.getLsbD 32)
  else if off = 0x1100 then s.ownerWrite port true fun s => s.setDbgsel x
  else if off = 0x1108 then
    s.ownerWrite port true fun s => s.setDbgctl (x.getLsbD 0) (x.getLsbD 1) (x.getLsbD 2) (x.getLsbD 3)
  else if 0x2000 ≤ off && off < 0x2800 then s.queueWrite port ((off - 0x2000) / 32) (off % 32 / 8) x
  else if 0x2800 ≤ off && off < 0x2A00 then
    let q := (off - 0x2800) / 8
    s.ownerWrite port (s.loftEntryFree q) fun s => s.setLoftmap q x
  else if 0x8000 ≤ off && off < 0x8600 then s.linkWrite port ((off - 0x8000) / 32) (off % 32 / 8) x
  else if 0x4000000 ≤ off && off < 0x4000000 + 288 * 0x40000 then
    s.ceWrite port false ((off - 0x4000000) / 0x40000) (off % 0x40000 / 8)
  else if 0x9000000 ≤ off && off < 0x9000000 + 288 * 0x1000 then
    s.ceWrite port true ((off - 0x9000000) / 0x1000) (off % 0x1000 / 8)
  else if 0x10000000 ≤ off && off < 0x12000000 then
    s.ownerWrite port (s.loader.state = 0 || s.loader.state = 3) fun s => s.setBuffer (off - 0x10000000) x
  else s.ownerWrite port true id

/-- REGISTER_WRITE. -/
def execRegisterWrite (port off : Nat) (value : BitVec 64) (s : State) : Host.Outcome State Fault Refusal :=
  if off % 8 ≠ 0 then idle s
  else atPort port s
    (if off < 0x20000000 then s.windowWrite port off value else s.apertureWrite port (off - 0x20000000) value)

end Sys2Proof.Machine
end

