-- ==== Sys2Proof/Machine/View.lean ====
section
/-!
DEFINITION. What a host reads: an aligned 8-byte read of BAR0 (R235, with the field maps of R138 to R140, R155, R159, R163 to
R165, R167, R185, R192, R194, R199, R208, R217, R218, R227, R232, R237, R239, R243 to R246) or of BAR4 (R236, R331). A read
has no side effect (R234), so these are functions of the state. None stands for an Unsupported Request: an address outside the
BAR (R233). Where the spec gives no layout, the bytes are free values of what they hold (log 50).
-/

namespace Sys2Proof.Machine

/-- Fields of a register: each value at its lowest bit. -/
def regWord (fs : List (Nat × Nat)) : Word := BitVec.ofNat 64 ((fs.map fun f => f.1 * 2 ^ f.2).sum)

/-- Eight bytes as a word, the first the least significant. -/
def bytesWord (f : Nat → Nat) : Word := regWord ((List.range 8).map fun i => (f i % 256, 8 * i))

/-! ### BAR0 -/

/-- The registers below 0x1000 as a port sees them. -/
def State.readLow (s : State) (port off : Nat) : Word :=
  let p := s.port port
  let o := s.own
  match off with
  | 0x00 => regWord [(0x0110, 0), (Config.stepping.toNat, 16), (Config.serial.toNat, 32)]
  | 0x08 =>
    regWord [(o.owner.toNat, 0), (o.owned.toNat, 2), ((s.owns port).toNat, 3), (o.hport.toNat, 5), (o.hreq.toNat, 7),
             (o.epoch.toNat, 16)]
  | 0x10 => regWord [(p.denied.toNat, 0), (p.clost.toNat, 1), (p.refused.toNat, 2), (p.link.toNat, 3)]
  | 0x28 => regWord [(s.loader.state.toNat, 0), (s.loader.err.toNat, 4), (s.loader.version.toNat, 32)]
  | 0x30 =>
    regWord [((s.att.queue.any fun q => q.1 = port).toNat, 0), (s.att.err.toNat, 8), (s.att.port.toNat, 16)]
  | _ => if 0x38 ≤ off && off < 0x58 then p.nonce.extractLsb' (8 * (off - 0x38)) 64 else 0

/-- PREEMPT: HELD is 1 while no group of the launch of a request in force holds a slot (R208, R209). -/
def State.readPreempt (s : State) (k : Nat) : Word :=
  let p := s.preempt.getD k { launch := 0, go := false, force := false }
  let held := p.go && p.force &&
    !s.groups.any fun g => g.2.standing = .slot && !isCallable g.1 && lidOf (gangOf g.1) = p.launch
  regWord [(p.launch.toNat, 0), (p.go.toNat, 32), (held.toNat, 33)]

/-- The settings from 0x1000 on. -/
def State.readSetting (s : State) (i : Nat) : Word :=
  let c := s.cfg
  match i with
  | 0 => regWord [(c.ptEn.toNat, 0), (c.ptRoot.toNat, 19)]
  | 1 => regWord [(c.kcode.toNat, 0), (c.lp.toNat, 8), (c.rs.toNat, 17), (c.ls.toNat, 32)]
  | 2 => c.tmapBase
  | 3 => regWord [(c.tmwm.toNat, 0), (c.tmhm.toNat, 8), (c.rppm.toNat, 16), (c.slotsm.toNat, 20), (c.tmapEn.toNat, 22)]
  | 4 => regWord [(c.sync.toNat, 0)]
  | 5 => regWord [(c.shootVpn.toNat, 0), (c.shootNpm.toNat, 41), (c.shootAll.toNat, 57), (c.shootBusy.toNat, 63)]
  | 6 => regWord [(c.starve.toNat, 0)]
  | 7 => regWord [(c.tfSeq.toNat, 0), (c.tfAction.toNat, 16)]
  | 8 => regWord [(s.evTail.toNat, 0), (s.evHead.toNat, 8), (s.evLost.toNat, 16)]
  | _ => c.loftwin

/-- The registers of launch queue q; LQAPPEND answers the reading port (R140). -/
def State.readQueue (s : State) (port q i : Nat) : Word :=
  let x := s.queue q
  match i with
  | 0 => regWord [(x.prio.toNat, 0), (x.en.toNat, 2), (x.quantum.toNat, 8)]
  | 1 =>
    regWord [(x.entries.length, 0), (x.headi.toNat, 16), ((x.headi.toNat + x.entries.length) % 256, 24),
             (x.full.toNat, 32), (x.off.toNat, 33), (x.rej.toNat, 34)]
  | 2 => BitVec.ofInt 64 x.deficit
  | _ =>
    let a := kget AppendReply.none s.appends (port * 64 + q)
    regWord [(a.lid.toNat, 0), (a.res.toNat, 32), (a.napp.toNat, 48)]

/-- The words of an event-ring entry (R218). -/
def Event.word (e : Event) (i : Nat) : Word :=
  match i with
  | 0 => regWord [(e.kind.toNat, 0), (e.cause.toNat, 8), (e.seq.toNat, 16), (e.launch.toNat, 32)]
  | 1 => e.addr
  | 2 =>
    regWord [(e.stall.toNat, 0), (e.group.toNat, 17), (e.wr.toNat, 21), (e.fetch.toNat, 22), (e.mal.toNat, 23),
             (e.gang.toNat, 32)]
  | _ => e.task

/-- The registers of a panel link (R246). -/
def State.readLink (s : State) (l i : Nat) : Word :=
  let k := s.link l
  match i with
  | 0 => regWord [(k.en.toNat, 0), (k.inb.toNat, 1)]
  | 1 => regWord [(k.up.toNat, 0), (k.peer.toNat, 1)]
  | 2 => k.iwbase
  | _ => k.iwlen

/-- A spare-map entry and a hosting-table entry (R185, R227). -/
def Spare.mapEntry (e : Spare) : Nat := e.phys.toNat + 512 * e.absent.toNat + 1024 * e.repl.toNat
def Spare.hostEntry (e : Spare) : Word := regWord [(e.hostStable.toNat, 0), (e.hostPhys.toNat, 9), (e.hosted.toNat, 18)]

/-- A stable's block: LCNT, LOFF, CESRAM, CEFETCH, the spare map, FAILED, the hosting table (R185, R192, R194, R227). -/
def State.readStable (s : State) (n off : Nat) : Word :=
  let x := s.stable n
  if off = 0 then s.lcnt n
  else if off = 8 then s.loffOf n
  else if off = 16 then x.cesram.setWidth 64
  else if off = 24 then x.cefetch.setWidth 64
  else if off < 752 then
    regWord ((List.range 4).map fun i => ((s.spare (360 * n + (off - 32) / 2 + i)).mapEntry, 16 * i))
  else if off < 800 then x.failed.extractLsb' (8 * (off - 752)) 64
  else if off < 3680 then (s.spare (360 * n + (off - 800) / 8)).hostEntry
  else 0

/-- A read of BAR0, which has 512 MiB (R234), at a multiple of 8. -/
def State.readBar0 (s : State) (port off : Nat) : Option Word :=
  if 2 ^ 29 ≤ off then none
  else if off < 0x1000 then some (s.readLow port off)
  else if off < 0x1050 then some (s.readSetting ((off - 0x1000) / 8))
  else if 0x1080 ≤ off && off < 0x10C0 then some (s.readPreempt ((off - 0x1080) / 8))
  else if off = 0x1100 then some (regWord [(s.cfg.dbgStall.toNat, 0), (s.cfg.dbgSlot.toNat, 17)])
  else if off = 0x1108 then
    let d := s.dbgctl
    some (regWord [(d.att.toNat, 0), (d.hreq.toNat, 1), (d.step.toNat, 2), (d.run.toNat, 3), (d.halted.toNat, 4)])
  else if 0x2000 ≤ off && off < 0x2800 then some (s.readQueue port ((off - 0x2000) / 32) (off % 32 / 8))
  else if 0x2800 ≤ off && off < 0x2A00 then some (kget 0 s.loftmap ((off - 0x2800) / 8))
  else if 0x3000 ≤ off && off < 0x5000 then
    some ((kget Event.none s.evRing ((off - 0x3000) / 32)).word (off % 32 / 8))
  else if 0x5000 ≤ off && off < 0x6000 then
    some (match s.att.report with
      | none => 0
      | some r => bytesWord fun i => (Config.reportByte r (off - 0x5000 + i)).toNat)
  else if 0x8000 ≤ off && off < 0x8600 then some (s.readLink ((off - 0x8000) / 32) (off % 32 / 8))
  else if 0x4000000 ≤ off && off < 0x4000000 + 288 * 0x40000 then
    some (s.readStable ((off - 0x4000000) / 0x40000) (off % 0x40000))
  else if 0x9000000 ≤ off && off < 0x9000000 + 288 * 0x1000 then
    let b := s.barn ((off - 0x9000000) / 0x1000)
    match off % 0x1000 with
    | 0 => some (b.cel2.setWidth 64)
    | 8 => some (b.cedram.setWidth 64)
    | 16 => some (b.celink.setWidth 64)
    | 24 => some (s.ringWord ((off - 0x9000000) / 0x1000))
    | _ => some 0
  else if 0x10000000 ≤ off && off < 0x12000000 then
    some (bytesWord fun i => (s.loader.buffer.read (off - 0x10000000 + i)).toNat)
  else some 0

/-! ### BAR4 -/

/-- The group that stands in a slot of a stall. -/
def State.slotGroup (s : State) (stall slot : Nat) : Option Nat :=
  ((s.standing stall .slot).find? fun p => p.2.slot = slot).map Prod.fst

/-- A group slot's registers; a slot that no group holds reads as an empty one (log 55). -/
def State.readSlot (s : State) (stall slot off : Nat) : Word :=
  match s.slotGroup stall slot with
  | none => 0
  | some k =>
    let r := (s.group k).r
    if off < 0x200 then r.getS (off / 8)
    else if off < 0x300 then (s.userSpecial k ((off - 0x200) / 8)).getD 0
    else if off < 0x328 then (r.supervisor (32 + (off - 0x300) / 8)).getD 0
    else if off = 0x328 then regWord [(r.sup.toNat, 0)]
    else if off = 0x330 then r.pc
    else if 0x400 ≤ off && off < 0x2400 then
      let n := (off - 0x400) / 128
      let l := (off - 0x400) % 128 / 4
      r.getV n (l + 1) ++ r.getV n l
    else 0

/-- The two words of a range-lock entry (R172). -/
def Lock.word (l : Lock) (hi : Bool) : Word :=
  if hi then regWord [(l.base % 2 ^ 57, 0)]
  else regWord [(1, 0), (l.dst.toNat, 1), (l.glb.toNat, 2), (l.qidx % 16, 8), (l.eng.toNat, 12), (l.len % 2 ^ 32, 32)]

/-- PMCTL and PMCNT (R193). -/
def Pm.ctl (p : Pm) : Word := regWord [(p.event.toNat, 0), (p.en.toNat, 5), (p.ovf.toNat, 6)]

/-- A byte of a bank's exponents and marks (R331). -/
def Bank.markByte (b : Bank) (i : Nat) : Nat :=
  if i < 32 then (kget 0x3F b.ra i).toNat
  else if i < 64 then (kget 0x3F b.rb (i - 32)).toNat
  else if i = 64 then b.set.toNat
  else
    match b.bound with
    | none => 0
    | some (g, n) =>
      if i = 65 then 1 + 2 * (n % 4)
      else if 68 ≤ i && i < 72 then (lidOf g).toNat / 2 ^ (8 * (i - 68))
      else if 72 ≤ i && i < 80 then linOf g / 2 ^ (8 * (i - 72))
      else 0

/-- A byte of a bank's elements: 6 bytes each, row by row. -/
def Bank.elemByte (b : Bank) (i : Nat) : Nat := (kget 0 b.acc (i / 6)).toNat / 2 ^ (8 * (i % 6))

/-- A word of an activation table: the header, then the entries (R184). -/
def ActTable.word (a : ActTable) (i : Nat) : Word :=
  if i = 0 then regWord [(a.shift.toNat, 0), (a.fs.toNat, 8)]
  else regWord [((a.base.getD (i - 1) 0).toNat, 0), ((a.slope.getD (i - 1) 0).toNat, 32)]

/-- A word of the activation-table sets: set j is that of the stall's j-th gang in order of its number (log 50), and a set that no
gang holds reads zero. -/
def State.tableWord (s : State) (t i : Nat) : Word :=
  match (s.gangsOn t)[i / 260]? with
  | some p => (p.2.tables.getD (i % 260 / 65) ActTable.identity).word (i % 65)
  | none => 0

/-- A read in stall t's image (R236). -/
def State.readImage (s : State) (t off : Nat) : Word :=
  let st := s.stall t
  if !s.stallPresent t then 0
  else if off < 0x40000 then bytesWord fun i => (st.scratch.read (off + i)).toNat
  else if off < 0x80000 then s.readSlot t ((off - 0x40000) / 0x4000) (off % 0x4000)
  else if off < 0x80400 then
    regWord ((List.range 64).map fun i => ((kget false st.zmap (8 * (off - 0x80000) + i)).toNat, i))
  else if off < 0x80500 then
    match st.locks[(off - 0x80400) / 16]? with | some l => l.word (off % 16 = 8) | none => 0
  else if off = 0x80500 then s.cycOf t
  else if off < 0x80548 then (st.pm[(off - 0x80508) / 8]?.map Pm.ctl).getD 0
  else if off < 0x80588 then (st.pm[(off - 0x80548) / 8]?.map fun p => p.count.setWidth 64).getD 0
  else if off < 0x81000 then 0
  else if off < 0x82000 then bytesWord fun i => (Config.clbByte st.clb (off - 0x81000 + i)).toNat
  else if off < 0x90000 then bytesWord fun i => (Config.utlbByte st.utlb (off - 0x82000 + i)).toNat
  else if off < 0x98200 then s.tableWord t ((off - 0x90000) / 8)
  else if off < 0xA0000 then 0
  else if off < 0xB0000 then bytesWord fun i => (Config.itemByte st.itemq st.bins (off - 0xA0000 + i)).toNat
  else if 0xB0000 ≤ off && off < 0xB6000 then
    let b := st.banks.getD ((off - 0xB0000) / 0x1800) Bank.fresh
    bytesWord fun i => b.elemByte ((off - 0xB0000) % 0x1800 + i)
  else if 0xB6000 ≤ off && off < 0xB6200 then
    let b := st.banks.getD ((off - 0xB6000) / 0x80) Bank.fresh
    bytesWord fun i => b.markByte (off % 0x80 + i)
  else 0

/-- A byte of the loft as a port's read returns it: the copy in the domain that holds the port's barn (R236). A byte poisoned
there reads as a free value, and what lies beyond the loft reads zero. -/
def State.loftByte (s : State) (port o : Nat) : Nat :=
  let k := s.loftSide
  let b := loftBarn k (domainOf k (barnPos (portBarn port))) o
  if s.cfg.ls.toNat * 4096 ≤ o then 0
  else if s.cellsBad (loftKey b (loftPlace k o).2) b then ((Config.freeWord (s.free + o)).extractLsb' 0 8).toNat
  else (s.loft.read o).toNat

/-- A read of BAR4, which has 256 GiB (R234), at a multiple of 8: the stall images, the record areas, the loft window. -/
def State.readBar4 (s : State) (port off : Nat) : Option Word :=
  if 2 ^ 38 ≤ off then none
  else if off < 103680 * 0x100000 then some (s.readImage (off / 0x100000) (off % 0x100000))
  else if 0x2000000000 ≤ off && off < 0x2000000000 + 288 * 0x10000000 then
    let x := off - 0x2000000000
    some (bytesWord fun i => (s.recordByte (x / 0x10000000) (x % 0x10000000 + i)).toNat)
  else if 0x3800000000 ≤ off && off < 0x3840000000 then
    some (bytesWord fun i => s.loftByte port (s.cfg.loftwin.toNat * 2 ^ 30 + (off - 0x3800000000) + i))
  else some 0

/-! ### Requests of a host (R108, R110, R233, R234, R238, R241) -/

/-- A byte as a host reads it; poison, and what lies beyond general DRAM, read as free values (log 3). -/
def State.bar2Byte (s : State) (pa i : Nat) : Byte :=
  if pa + i < s.dramLimit && !s.poisonAt (pa + i) then s.coherent (pa + i)
  else (Config.freeWord (s.free + i)).extractLsb' 0 8

/-- A read of BAR2, which has 8 TiB (R234): an address outside it completes as Unsupported Request (R233). It is performed at the
lines' homes (R238). -/
def State.bar2Read (s : State) (port pa n : Nat) : State :=
  if pa + n ≤ 2 ^ 43 then
    let t := if pa < s.dramLimit then s.touchHomes pa (min (pa + n) s.dramLimit - pa) else s
    { t.answer port (some ((List.range n).map (s.bar2Byte pa))) with free := s.free + n }
  else s.answer port none

/-- n bytes of a BAR from an offset on, each out of the word that holds it; none where a byte lies outside the BAR. -/
def bytesAt (word : Nat → Option Word) (off n : Nat) : Option (List Byte) :=
  (List.range n).mapM fun i => (word ((off + i) / 8 * 8)).map fun x => x.extractLsb' (8 * ((off + i) % 8)) 8

/-- A read of n bytes by a host. -/
def State.hostRead (s : State) (port : Nat) (what : HostRead) (n : Nat) : State :=
  let bytes := fun (word : Nat → Option Word) (off : Nat) =>
    if off % 8 = 0 && n = 8 then (word off).map fun x => leBytes 8 x.toNat else bytesAt word off n
  match what with
  | .bar0 off => s.answer port (bytes (s.readBar0 port) off)
  | .bar2 pa => s.bar2Read port pa n
  | .bar4 off => s.answer port (bytes (s.readBar4 port) off)
  | .outside => s.answer port none

/-- HOST_BAR2_READ, and a host's reads of the other BARs. -/
def execHostBar2Read (port : Nat) (what : HostRead) (n : Nat) (s : State) : Host.Outcome State Fault Refusal :=
  atPort port s (s.hostRead port what n)

/-- A host writes its own memory: the panel's caches are not told (R108). Between the read and the write of a locked
read-modify-write its bytes are lost to that write. -/
def State.writeOwn (s : State) (port pa : Nat) (bs : List Byte) (during : Bool) : State :=
  let rmw := (s.port port).rmw
  ((List.range bs.length).zip bs).foldl
    (fun s p =>
      let loc := foreignLoc (port + 1) (pa + p.1)
      if during && rmw.contains loc then s else s.homeWrite loc p.2) s

/-- The owner host's write to general DRAM (R110, R237), what a host does to its own memory (R108), an AtomicOp, which completes
as Unsupported Request, as a write beyond the end of BAR2 does (R233). Of a write that lies in BAR2 and reaches beyond general
DRAM the model writes nothing, and PORTSTAT shows nothing (DESIGN CHOICE, log 84). -/
def State.hostWrite (s : State) (port : Nat) (what : HostWrite) (bs : List Byte) : State :=
  let p := s.port port
  match what with
  | .bar2 pa =>
    if 2 ^ 43 < pa + bs.length then s.answer port none
    else s.ownerWrite port true fun s => if pa + bs.length ≤ s.dramLimit then s.writeCoherent pa bs else s
  | .own pa during => s.writeOwn port pa bs during
  | .errors pa n =>
    (s.setPort port { p with bad := (pa, n) :: p.bad }).failHomes
      (fun loc => homeOfLoc loc = port + 1 && pa ≤ paOfLoc loc && paOfLoc loc < pa + n) []
  | .answers pa n => s.setPort port { p with bad := p.bad.filter (· != (pa, n)) }
  | .atomicOp => s.answer port none

/-- HOST_BAR2_WRITE, and a host's writes elsewhere than to registers. -/
def execHostBar2Write (port : Nat) (what : HostWrite) (bytes : List (BitVec 8)) (s : State) : Host.Outcome State Fault Refusal :=
  atPort port s (s.hostWrite port what bytes)

end Sys2Proof.Machine
end

