-- ==== Sys2Proof/Machine/Dispatch.lean ====
section
/-!
DEFINITION. One arm for each constructor of Instr: a direct call of its meaning.
-/

namespace Sys2Proof.Machine

def exec (i : Instr) (s : State) : Host.Outcome State Fault Refusal :=
  match i with
  | .nop o => Sys2Proof.Machine.execNop o s
  | .brk o => Sys2Proof.Machine.execBrk o s
  | .add o => Sys2Proof.Machine.execAdd o s
  | .sub o => Sys2Proof.Machine.execSub o s
  | .mul o => Sys2Proof.Machine.execMul o s
  | .mulh o => Sys2Proof.Machine.execMulh o s
  | .mulhn o => Sys2Proof.Machine.execMulhn o s
  | .div o => Sys2Proof.Machine.execDiv o s
  | .divn o => Sys2Proof.Machine.execDivn o s
  | .rem o => Sys2Proof.Machine.execRem o s
  | .remn o => Sys2Proof.Machine.execRemn o s
  | .min o => Sys2Proof.Machine.execMin o s
  | .max o => Sys2Proof.Machine.execMax o s
  | .minn o => Sys2Proof.Machine.execMinn o s
  | .maxn o => Sys2Proof.Machine.execMaxn o s
  | .and o => Sys2Proof.Machine.execAnd o s
  | .or o => Sys2Proof.Machine.execOr o s
  | .xor o => Sys2Proof.Machine.execXor o s
  | .andn o => Sys2Proof.Machine.execAndn o s
  | .shl o => Sys2Proof.Machine.execShl o s
  | .shr o => Sys2Proof.Machine.execShr o s
  | .sar o => Sys2Proof.Machine.execSar o s
  | .rol o => Sys2Proof.Machine.execRol o s
  | .ror o => Sys2Proof.Machine.execRor o s
  | .clz o => Sys2Proof.Machine.execClz o s
  | .ctz o => Sys2Proof.Machine.execCtz o s
  | .popc o => Sys2Proof.Machine.execPopc o s
  | .brev o => Sys2Proof.Machine.execBrev o s
  | .bfx o => Sys2Proof.Machine.execBfx o s
  | .bfxs o => Sys2Proof.Machine.execBfxs o s
  | .bfi o => Sys2Proof.Machine.execBfi o s
  | .sel o => Sys2Proof.Machine.execSel o s
  | .cmp o => Sys2Proof.Machine.execCmp o s
  | .lea o => Sys2Proof.Machine.execLea o s
  | .movi o => Sys2Proof.Machine.execMovi o s
  | .mov o => Sys2Proof.Machine.execMov o s
  | .srd o => Sys2Proof.Machine.execSrd o s
  | .swr o => Sys2Proof.Machine.execSwr o s
  | .mblk o => Sys2Proof.Machine.execMblk o s
  | .part o => Sys2Proof.Machine.execPart o s
  | .serb o => Sys2Proof.Machine.execSerb o s
  | .sere o => Sys2Proof.Machine.execSere o s
  | .br o => Sys2Proof.Machine.execBr o s
  | .brc o => Sys2Proof.Machine.execBrc o s
  | .jmp o => Sys2Proof.Machine.execJmp o s
  | .call o => Sys2Proof.Machine.execCall o s
  | .calli o => Sys2Proof.Machine.execCalli o s
  | .ret o => Sys2Proof.Machine.execRet o s
  | .trap o => Sys2Proof.Machine.execTrap o s
  | .eret o => Sys2Proof.Machine.execEret o s
  | .gtime o => Sys2Proof.Machine.execGtime o s
  | .ltime o => Sys2Proof.Machine.execLtime o s
  | .ifence o => Sys2Proof.Machine.execIfence o s
  | .svc o => Sys2Proof.Machine.execSvc o s
  | .fadd o => Sys2Proof.Machine.execFadd o s
  | .fsub o => Sys2Proof.Machine.execFsub o s
  | .fmul o => Sys2Proof.Machine.execFmul o s
  | .fma o => Sys2Proof.Machine.execFma o s
  | .fmin o => Sys2Proof.Machine.execFmin o s
  | .fmax o => Sys2Proof.Machine.execFmax o s
  | .fcmp o => Sys2Proof.Machine.execFcmp o s
  | .fclass o => Sys2Proof.Machine.execFclass o s
  | .frint o => Sys2Proof.Machine.execFrint o s
  | .frcp o => Sys2Proof.Machine.execFrcp o s
  | .frsq o => Sys2Proof.Machine.execFrsq o s
  | .fsqrt o => Sys2Proof.Machine.execFsqrt o s
  | .fexp2 o => Sys2Proof.Machine.execFexp2 o s
  | .flog2 o => Sys2Proof.Machine.execFlog2 o s
  | .fsinp o => Sys2Proof.Machine.execFsinp o s
  | .fcosp o => Sys2Proof.Machine.execFcosp o s
  | .hadd2 o => Sys2Proof.Machine.execHadd2 o s
  | .hmul2 o => Sys2Proof.Machine.execHmul2 o s
  | .hfma2 o => Sys2Proof.Machine.execHfma2 o s
  | .hmin2 o => Sys2Proof.Machine.execHmin2 o s
  | .hmax2 o => Sys2Proof.Machine.execHmax2 o s
  | .hcmp2 o => Sys2Proof.Machine.execHcmp2 o s
  | .vadd o => Sys2Proof.Machine.execVadd o s
  | .vsub o => Sys2Proof.Machine.execVsub o s
  | .vmul o => Sys2Proof.Machine.execVmul o s
  | .vmulh o => Sys2Proof.Machine.execVmulh o s
  | .vmad o => Sys2Proof.Machine.execVmad o s
  | .vmin o => Sys2Proof.Machine.execVmin o s
  | .vmax o => Sys2Proof.Machine.execVmax o s
  | .vand o => Sys2Proof.Machine.execVand o s
  | .vor o => Sys2Proof.Machine.execVor o s
  | .vxor o => Sys2Proof.Machine.execVxor o s
  | .vshl o => Sys2Proof.Machine.execVshl o s
  | .vshr o => Sys2Proof.Machine.execVshr o s
  | .vsar o => Sys2Proof.Machine.execVsar o s
  | .vcmp o => Sys2Proof.Machine.execVcmp o s
  | .vsel o => Sys2Proof.Machine.execVsel o s
  | .vadds o => Sys2Proof.Machine.execVadds o s
  | .vclz o => Sys2Proof.Machine.execVclz o s
  | .vctz o => Sys2Proof.Machine.execVctz o s
  | .vffs o => Sys2Proof.Machine.execVffs o s
  | .vpopc o => Sys2Proof.Machine.execVpopc o s
  | .vbrev o => Sys2Proof.Machine.execVbrev o s
  | .vbfx o => Sys2Proof.Machine.execVbfx o s
  | .vbfi o => Sys2Proof.Machine.execVbfi o s
  | .cvt o => Sys2Proof.Machine.execCvt o s
  | .cvtd o => Sys2Proof.Machine.execCvtd o s
  | .vscale o => Sys2Proof.Machine.execVscale o s
  | .shfl o => Sys2Proof.Machine.execShfl o s
  | .shflx o => Sys2Proof.Machine.execShflx o s
  | .shflup o => Sys2Proof.Machine.execShflup o s
  | .shfldn o => Sys2Proof.Machine.execShfldn o s
  | .gshf o => Sys2Proof.Machine.execGshf o s
  | .vbcast o => Sys2Proof.Machine.execVbcast o s
  | .vlane o => Sys2Proof.Machine.execVlane o s
  | .vidx o => Sys2Proof.Machine.execVidx o s
  | .voteany o => Sys2Proof.Machine.execVoteany o s
  | .voteall o => Sys2Proof.Machine.execVoteall o s
  | .ballot o => Sys2Proof.Machine.execBallot o s
  | .redadd o => Sys2Proof.Machine.execRedadd o s
  | .redfadd o => Sys2Proof.Machine.execRedfadd o s
  | .redmin o => Sys2Proof.Machine.execRedmin o s
  | .redmax o => Sys2Proof.Machine.execRedmax o s
  | .scanadd o => Sys2Proof.Machine.execScanadd o s
  | .scanfadd o => Sys2Proof.Machine.execScanfadd o s
  | .matchLanes o => Sys2Proof.Machine.execMatchLanes o s
  | .ldG o => Sys2Proof.Machine.execLdG o s
  | .ldL o => Sys2Proof.Machine.execLdL o s
  | .ldF o => Sys2Proof.Machine.execLdF o s
  | .ldR o => Sys2Proof.Machine.execLdR o s
  | .lds o => Sys2Proof.Machine.execLds o s
  | .ldline o => Sys2Proof.Machine.execLdline o s
  | .stG o => Sys2Proof.Machine.execStG o s
  | .stL o => Sys2Proof.Machine.execStL o s
  | .stR o => Sys2Proof.Machine.execStR o s
  | .stRCnt o => Sys2Proof.Machine.execStRCnt o s
  | .sts o => Sys2Proof.Machine.execSts o s
  | .atomG o => Sys2Proof.Machine.execAtomG o s
  | .atomL o => Sys2Proof.Machine.execAtomL o s
  | .atomR o => Sys2Proof.Machine.execAtomR o s
  | .acq o => Sys2Proof.Machine.execAcq o s
  | .rel o => Sys2Proof.Machine.execRel o s
  | .fence o => Sys2Proof.Machine.execFence o s
  | .claim o => Sys2Proof.Machine.execClaim o s
  | .volld o => Sys2Proof.Machine.execVolld o s
  | .volst o => Sys2Proof.Machine.execVolst o s
  | .volinv o => Sys2Proof.Machine.execVolinv o s
  | .cart o => Sys2Proof.Machine.execCart o s
  | .cartg o => Sys2Proof.Machine.execCartg o s
  | .twaitany o => Sys2Proof.Machine.execTwaitany o s
  | .twaitall o => Sys2Proof.Machine.execTwaitall o s
  | .tffs o => Sys2Proof.Machine.execTffs o s
  | .waitc o => Sys2Proof.Machine.execWaitc o s
  | .binit o => Sys2Proof.Machine.execBinit o s
  | .barr o => Sys2Proof.Machine.execBarr o s
  | .barrRemote o => Sys2Proof.Machine.execBarrRemote o s
  | .bwait o => Sys2Proof.Machine.execBwait o s
  | .btest o => Sys2Proof.Machine.execBtest o s
  | .bale o => Sys2Proof.Machine.execBale o s
  | .plz o => Sys2Proof.Machine.execPlz o s
  | .mloop o => Sys2Proof.Machine.execMloop o s
  | .mfence o => Sys2Proof.Machine.execMfence o s
  | .mwait o => Sys2Proof.Machine.execMwait o s
  | .mdrain o => Sys2Proof.Machine.execMdrain o s
  | .mclr o => Sys2Proof.Machine.execMclr o s
  | .actld o => Sys2Proof.Machine.execActld o s
  | .scacc o => Sys2Proof.Machine.execScacc o s
  | .draw o => Sys2Proof.Machine.execDraw o s
  | .rsupd o => Sys2Proof.Machine.execRsupd o s
  | .rsmrg o => Sys2Proof.Machine.execRsmrg o s
  | .rsnrm o => Sys2Proof.Machine.execRsnrm o s
  | .rsld o => Sys2Proof.Machine.execRsld o s
  | .rsst o => Sys2Proof.Machine.execRsst o s
  | .rayq o => Sys2Proof.Machine.execRayq o s
  | .rayv o => Sys2Proof.Machine.execRayv o s
  | .ltree o => Sys2Proof.Machine.execLtree o s
  | .tcall o => Sys2Proof.Machine.execTcall o s
  | .tret o => Sys2Proof.Machine.execTret o s
  | .groom o => Sys2Proof.Machine.execGroom o s
  | .launch o => Sys2Proof.Machine.execLaunch o s
  | .gbar o => Sys2Proof.Machine.execGbar o s
  | .stint o => Sys2Proof.Machine.execStint o s
  | .exit o => Sys2Proof.Machine.execExit o s
  | .fetchw o => Sys2Proof.Machine.execFetchw o s
  | .spawn o => Sys2Proof.Machine.execSpawn o s
  | .spawnIndirect o => Sys2Proof.Machine.execSpawnIndirect o s
  | .lrefill o => Sys2Proof.Machine.execLrefill o s
  | .task o => Sys2Proof.Machine.execTask o s
  | .taskRun o => Sys2Proof.Machine.execTaskRun o s
  | .fwait o => Sys2Proof.Machine.execFwait o s
  | .fset o => Sys2Proof.Machine.execFset o s
  | .lock o => Sys2Proof.Machine.execLock o s
  | .unlock o => Sys2Proof.Machine.execUnlock o s
  | .enq o => Sys2Proof.Machine.execEnq o s
  | .deq o => Sys2Proof.Machine.execDeq o s
  | .qwait o => Sys2Proof.Machine.execQwait o s
  | .ybar o => Sys2Proof.Machine.execYbar o s
  | .ywait o => Sys2Proof.Machine.execYwait o s
  | .tlbinv o => Sys2Proof.Machine.execTlbinv o s
  | .tlbinvAll o => Sys2Proof.Machine.execTlbinvAll o s
  | .probeResult grp => Sys2Proof.Machine.execProbeResult grp s
  | .probeLinkLimit grp => Sys2Proof.Machine.execProbeLinkLimit grp s
  | .sectionAccept grp => Sys2Proof.Machine.execSectionAccept grp s
  | .stagingCheck grp => Sys2Proof.Machine.execStagingCheck grp s
  | .creditCommit stall => Sys2Proof.Machine.execCreditCommit stall s
  | .remoteAccessArrive grp => Sys2Proof.Machine.execRemoteAccessArrive grp s
  | .remoteReply grp => Sys2Proof.Machine.execRemoteReply grp s
  | .loadComplete grp what => Sys2Proof.Machine.execLoadComplete grp what s
  | .storeAck grp idx => Sys2Proof.Machine.execStoreAck grp idx s
  | .homeRegistration stall word => Sys2Proof.Machine.execHomeRegistration stall word s
  | .l1WordExpiry stall word => Sys2Proof.Machine.execL1WordExpiry stall word s
  | .lineFetch grp => Sys2Proof.Machine.execLineFetch grp s
  | .claimRehomeDone grp => Sys2Proof.Machine.execClaimRehomeDone grp s
  | .shootdownAck grp => Sys2Proof.Machine.execShootdownAck grp s
  | .cartStart stall idx => Sys2Proof.Machine.execCartStart stall idx s
  | .cartComplete stall idx => Sys2Proof.Machine.execCartComplete stall idx s
  | .cartgComplete stall idx => Sys2Proof.Machine.execCartgComplete stall idx s
  | .baleComplete stall idx => Sys2Proof.Machine.execBaleComplete stall idx s
  | .mloopComplete stall => Sys2Proof.Machine.execMloopComplete stall s
  | .mdrainComplete stall => Sys2Proof.Machine.execMdrainComplete stall s
  | .mclrRun stall => Sys2Proof.Machine.execMclrRun stall s
  | .rayQueryComplete grp idx => Sys2Proof.Machine.execRayQueryComplete grp idx s
  | .rayVisitLimit grp idx => Sys2Proof.Machine.execRayVisitLimit grp idx s
  | .ltreeStepLimit grp idx => Sys2Proof.Machine.execLtreeStepLimit grp idx s
  | .callableRunStart stall => Sys2Proof.Machine.execCallableRunStart stall s
  | .callableIssueLimit stall => Sys2Proof.Machine.execCallableIssueLimit stall s
  | .groomStart stable => Sys2Proof.Machine.execGroomStart stable s
  | .groomComplete stable idx => Sys2Proof.Machine.execGroomComplete stable idx s
  | .gbarComplete gang => Sys2Proof.Machine.execGbarComplete gang s
  | .yardRoundRelease ctx => Sys2Proof.Machine.execYardRoundRelease ctx s
  | .lqappend port queue value => Sys2Proof.Machine.execLqappend port queue value s
  | .distributorTakeBlock queue => Sys2Proof.Machine.execDistributorTakeBlock queue s
  | .gangPlacement => Sys2Proof.Machine.execGangPlacement s
  | .starvationLimit queue => Sys2Proof.Machine.execStarvationLimit queue s
  | .fetchwServe => Sys2Proof.Machine.execFetchwServe s
  | .gangRetire gang cycles => Sys2Proof.Machine.execGangRetire gang cycles s
  | .issueAgeRotate grp => Sys2Proof.Machine.execIssueAgeRotate grp s
  | .packingMove stall => Sys2Proof.Machine.execPackingMove stall s
  | .spillMove stall => Sys2Proof.Machine.execSpillMove stall s
  | .binTimeout stall bin => Sys2Proof.Machine.execBinTimeout stall bin s
  | .binGroupStart stall => Sys2Proof.Machine.execBinGroupStart stall s
  | .taskRunStart gang => Sys2Proof.Machine.execTaskRunStart gang s
  | .groupPark grp => Sys2Proof.Machine.execGroupPark grp s
  | .groupWake grp => Sys2Proof.Machine.execGroupWake grp s
  | .gangReplacement gang => Sys2Proof.Machine.execGangReplacement gang s
  | .stallErrorLoss stall => Sys2Proof.Machine.execStallErrorLoss stall s
  | .stallCheckMiss stall => Sys2Proof.Machine.execStallCheckMiss stall s
  | .stableCheckMiss stable => Sys2Proof.Machine.execStableCheckMiss stable s
  | .stallHosting stall => Sys2Proof.Machine.execStallHosting stall s
  | .gangRestore gang => Sys2Proof.Machine.execGangRestore gang s
  | .barnLoss barn => Sys2Proof.Machine.execBarnLoss barn s
  | .barnMoveComplete barn => Sys2Proof.Machine.execBarnMoveComplete barn s
  | .dieLinkFailure barn dir => Sys2Proof.Machine.execDieLinkFailure barn dir s
  | .eccCorrected cls place => Sys2Proof.Machine.execEccCorrected cls place s
  | .eccUncorrectable site => Sys2Proof.Machine.execEccUncorrectable site s
  | .panelLinkFailure link => Sys2Proof.Machine.execPanelLinkFailure link s
  | .panelLinkInbound link req => Sys2Proof.Machine.execPanelLinkInbound link req s
  | .timeFirstSync stable release err => Sys2Proof.Machine.execTimeFirstSync stable release err s
  | .loffAdjust stable => Sys2Proof.Machine.execLoffAdjust stable s
  | .powerOn => Sys2Proof.Machine.execPowerOn s
  | .panelrst port => Sys2Proof.Machine.execPanelrst port s
  | .portReset port => Sys2Proof.Machine.execPortReset port s
  | .portLinkDownTimeout port => Sys2Proof.Machine.execPortLinkDownTimeout port s
  | .ownctlClaim ports => Sys2Proof.Machine.execOwnctlClaim ports s
  | .ownctlHandoverOffer port hport => Sys2Proof.Machine.execOwnctlHandoverOffer port hport s
  | .ownctlOfferWithdraw port => Sys2Proof.Machine.execOwnctlOfferWithdraw port s
  | .ownctlAccept port => Sys2Proof.Machine.execOwnctlAccept port s
  | .ownctlRelease port => Sys2Proof.Machine.execOwnctlRelease port s
  | .ldrctlGo port => Sys2Proof.Machine.execLdrctlGo port s
  | .loaderVerifyDone => Sys2Proof.Machine.execLoaderVerifyDone s
  | .attctlReq port => Sys2Proof.Machine.execAttctlReq port s
  | .attestationReportDone => Sys2Proof.Machine.execAttestationReportDone s
  | .tlbshoot port value => Sys2Proof.Machine.execTlbshoot port value s
  | .tlbshootAck => Sys2Proof.Machine.execTlbshootAck s
  | .tmapsync port => Sys2Proof.Machine.execTmapsync port s
  | .tmapsyncDone => Sys2Proof.Machine.execTmapsyncDone s
  | .memcfgWrite port value => Sys2Proof.Machine.execMemcfgWrite port value s
  | .preemptGo port k lid => Sys2Proof.Machine.execPreemptGo port k lid s
  | .preemptLift port k => Sys2Proof.Machine.execPreemptLift port k s
  | .tfdoneRetry port seq => Sys2Proof.Machine.execTfdoneRetry port seq s
  | .tfdoneDeny port seq => Sys2Proof.Machine.execTfdoneDeny port seq s
  | .tfdoneEnd port seq => Sys2Proof.Machine.execTfdoneEnd port seq s
  | .evptrHeadWrite port value => Sys2Proof.Machine.execEvptrHeadWrite port value s
  | .loftWrite port off bytes => Sys2Proof.Machine.execLoftWrite port off bytes s
  | .hostBar2Write port what bytes => Sys2Proof.Machine.execHostBar2Write port what bytes s
  | .hostBar2Read port what n => Sys2Proof.Machine.execHostBar2Read port what n s
  | .dbgctlAttach port => Sys2Proof.Machine.execDbgctlAttach port s
  | .dbgctlHaltRequest port => Sys2Proof.Machine.execDbgctlHaltRequest port s
  | .dbgctlStep port => Sys2Proof.Machine.execDbgctlStep port s
  | .dbgctlRun port => Sys2Proof.Machine.execDbgctlRun port s
  | .dbgctlDetach port => Sys2Proof.Machine.execDbgctlDetach port s
  | .ceCounterClear port cls place => Sys2Proof.Machine.execCeCounterClear port cls place s
  | .registerWrite port off value => Sys2Proof.Machine.execRegisterWrite port off value s
  | .portLinkDown port => Sys2Proof.Machine.execPortLinkDown port s
  | .portLinkUp up => Sys2Proof.Machine.execPortLinkUp up s
  | .panelLinkTrained link peer => Sys2Proof.Machine.execPanelLinkTrained link peer s
  | .zeroLengthReadCompletion port => Sys2Proof.Machine.execZeroLengthReadCompletion port s
  | .panelTimeTick => Sys2Proof.Machine.execPanelTimeTick s
  | .stallCycle stall counts => Sys2Proof.Machine.execStallCycle stall counts s

end Sys2Proof.Machine
end

