-- ==== Sys2Proof/Machine/Misaligned.lean ====
section
/-!
DEFINITION. The supervisor handler of the panel firmware (R216): the emulation of MISALIGNED for the plain forms of loads
and stores, and the routing of the forms that are not emulated.
-/

namespace Sys2Proof.Machine

/-- The instruction as it stood before the trap that brought it to the handler: its address, its mode, its place in a
pair. -/
def State.beforeTrap (s : State) : State :=
  s.modMe fun g =>
    { g with r := { g.r with pc := g.r.tpc, sup := g.r.estat.getLsbD 8 }, transferFrom := none,
             pairFirst := g.r.estat.getLsbD 9, pairSecond := g.r.estat.getLsbD 10 }

/-- The held or coherent line of an instruction address (R285). -/
def State.lineNow (s : State) (pc : Word) : Option Nat :=
  let a := lineAddr pc
  match (s.stall s.here).heldLine a.toNat with
  | some l => some l
  | none => (s.structLoc s.here a 64 .fetch).map fun loc => s.coherentN loc 64

/-- A slot of that line. -/
def State.slotAt (s : State) (pc : Word) : Option (Nat × Instr) := do
  let l ← s.lineNow pc
  let i ← lineInstr l (slotNo pc)
  pure (lineLive l, i)

/-- The parts of one lane's access: whole when it is aligned, else its bytes in ascending order (R113, R216). -/
def laneParts (va : Word) (n : Nat) : List (Word × Nat) :=
  if va.toNat % n = 0 then [(va, n)] else (List.range n).map fun i => (va + BitVec.ofNat 64 i, 1)

/-- Where a form's accesses lie. -/
inductive Space where
  | global | own | loft
  deriving DecidableEq, Repr

/-- The check of one part: any cause but MISALIGNED, which a part cannot meet. -/
def State.checkPiece (s : State) (sp : Space) (l : Nat) (va : Word) (n : Nat) (write : Bool) : Except LaneFault Acc :=
  match sp with
  | .global => s.globalAcc l va n (if write then .write else .read)
  | .own => s.ownAcc l va n (if write then .write else .read)
  | .loft =>
    match s.checkLoft (gangOf s.cur) va n with
    | .error f => .error f
    | .ok off => .ok { lane := l, va := va, loc := off, bytes := n, uncached := false, value := 0, compare := 0 }

/-- A part that is read: the state and the value. What another group of the stall has pending there is granted before the
read, which waits for it (R123). -/
def State.readPiece (s : State) (sp : Space) (a : Acc) : State × Nat :=
  match sp with
  | .global =>
    let s := (s.touchAll [a]).orderBefore [a]
    let s := if s.pendingByOther a.loc a.bytes then s.settleAt s.here a.loc a.bytes else s
    s.readAcc s.cur s.here a
  | .own => (s, s.ownValue a)
  | .loft => (s.touchLoft s.here a.loc a.bytes, s.loftValue a.loc a.bytes)

/-- A part that is written: the stores that wait for its word come first (R119). -/
def State.writePiece (s : State) (sp : Space) (a : Acc) : State :=
  match sp with
  | .global => ((s.orderBefore [a]).settleAt s.here a.loc a.bytes).storeAtOnce [a]
  | _ => s.storeOwn [a]

/-- The parts of one lane, one after another: what was done before a part that fails stays done. -/
def State.runPieces (s : State) (sp : Space) (store : Option Nat) (l : Nat) :
    List (Word × Nat) → Nat → Nat → State × Except LaneFault Nat
  | [], _, acc => (s, .ok acc)
  | (va, n) :: rest, i, acc =>
    match s.checkPiece sp l va n store.isSome with
    | .error f => (s, .error f)
    | .ok a =>
      match store with
      | some x =>
        let v := BitVec.ofNat 64 (x / 2 ^ (8 * i) % 2 ^ (8 * n))
        State.runPieces (s.writePiece sp { a with value := v }) sp store l rest (i + n) acc
      | none =>
        let p := s.readPiece sp a
        State.runPieces p.1 sp store l rest (i + n) (acc + p.2 * 2 ^ (8 * i))

/-- Every active lane in ascending order; the first that fails stops the emulation. -/
def State.runLanes (s : State) (sp : Space) (n : Nat) (store : Bool) (va : Nat → Word) (src : Nat → Nat) :
    List Nat → List (Nat × Nat) → State × Except (Nat × LaneFault) (List (Nat × Nat))
  | [], out => (s, .ok out.reverse)
  | l :: rest, out =>
    let p := s.runPieces sp (if store then some (src l) else none) l (laneParts (va l) n) 0 0
    match p.2 with
    | .error f => (p.1, .error (l, f))
    | .ok x => State.runLanes p.1 sp n store va src rest ((l, x) :: out)

/-- The handler returns to the slot that follows, by an ERET that restores the mode; the instruction has retired. -/
def State.emulated (s : State) (live : Nat) (ws : List RegWrite) : State :=
  let s := s.modMe fun g =>
    let r := g.r.writes ws
    let next := if g.r.estat.getLsbD 9 then g.r.tpc + 1 else slotAfter g.r.tpc live
    { g with r := { r with pc := next, epc := next, sup := r.estat.getLsbD 8 }, ric := g.ric + 1, transferFrom := none,
             pairFirst := false, pairSecond := false, blocked := none }
  { s with last := .retired, tried := [] }

/-- A cause that the emulation meets is reported as if the instruction had raised it, for that lane alone. -/
def laneTrap (p : Nat × LaneFault) : Trap :=
  { cause := p.2.cause, lanes := maskOf [p.1], addr := p.2.addr, wr := p.2.wr, fetch := false, mal := p.2.mal }

/-- The emulation of one instruction, with the privilege it had. -/
def State.emulate (s : State) (live : Nat) (sp : Space) (i : Instr) (o : Slot) (store : Bool) : State :=
  let t := s.beforeTrap
  let r := t.regs
  let va := fun l => match sp with | .global => eaGlobal o r l | _ => eaOffset o r l
  let src := fun l => laneOf o r o.b o.ty l % 2 ^ o.ty.bits
  let p := t.runLanes sp o.ty.bytes store va src r.active []
  match p.2 with
  | .error e => p.1.takeException false (laneTrap e)
  | .ok vals => p.1.emulated live (if store then [] else loadWrites o.ty (Instr.writesRegs i) vals)

/-- MISALIGNED of any other form, or of bits that no longer decode, is routed from the TASKID line on (R216). -/
def State.routeMisaligned (s : State) : State :=
  let r := s.regs
  let t : Trap := { cause := .misaligned, lanes := r.flmask, addr := r.taddr, wr := false, fetch := false, mal := false }
  let u := s.beforeTrap
  { u.routeFromTask t (r.estat.getLsbD 8) with last := .trapped Cause.misaligned.code, tried := [] }

/-- The handler's work for MISALIGNED. -/
def State.superviseMisaligned (s : State) : State :=
  match s.slotAt s.regs.tpc with
  | some (live, i) =>
    match i with
    | .ldG o => if o.ord = 0 then s.emulate live .global i o false else s.routeMisaligned
    | .ldL o => if o.ord = 0 then s.emulate live .own i o false else s.routeMisaligned
    | .ldF o => if o.ord = 0 then s.emulate live .loft i o false else s.routeMisaligned
    | .stG o => if o.ord = 0 then s.emulate live .global i o true else s.routeMisaligned
    | .stL o => if o.ord = 0 then s.emulate live .own i o true else s.routeMisaligned
    | _ => s.routeMisaligned
  | none => s.routeMisaligned

/-- The group has just entered the firmware's supervisor handler (R33, R215). -/
def State.atFirmware (s : State) : Bool :=
  let g := s.me
  g.r.sup && g.transferFrom.isSome && g.r.pc = s.fwTvec && !isCallable s.cur

/-- One move of the supervisor handler: MISALIGNED is emulated or routed; the services of SVC are the firmware's, and no
rule gives them (R216, R282). -/
def supervise (s : State) : Host.Outcome State Fault Refusal :=
  if s.regs.tcause.toNat = Cause.misaligned.code then .next s.superviseMisaligned else .refused .firmwareService

end Sys2Proof.Machine
end

