-- ==== Sys2Proof/Machine/Issue.lean ====
section
/-!
DEFINITION. One move of a group (R205, R206, R250 to R254): its halts (R232), the fetch of its line, the checks of its slot,
the issue of a slot or a pair, and what an issue leaves behind. Which stall or event moves next, and the line that
withFetchWord places.
-/

namespace Sys2Proof.Machine

abbrev Outcome := Host.Outcome State Fault Refusal

/-! ### A slot and a pair -/


/-- Checks 4 and 5 of R252. -/
def slotCheck (g : Group) (line : Nat) : Option Trap :=
  let k := slotNo g.r.pc
  if g.r.pc.extractLsb' 3 3 ≠ 0 || lineLive line ≤ k then some (fetchTrap .illegalLine (lineAddr g.r.pc))
  else
    match g.transferFrom with
    | some src => if lineTgt line k then none else some (Trap.whole .badTarget src)
    | none => none

/-- The marks of a slot are its place in its line (R82): the first or the second slot of a marked pair, also where it issues alone
(DEDUCED, log 79). -/
def State.placed (s : State) (line : Nat) : State :=
  s.modMe fun g =>
    let k := slotNo g.r.pc
    { g with pairFirst := linePair line k, pairSecond := 0 < k && linePair line (k - 1), before := none }

/-- Make ready for the issue of the slot at PC: its marks, its successor, and the end of the transfer that led to it. -/
def State.ready (s : State) (line : Nat) : State :=
  (s.placed line).modMe fun g =>
    { g with succ := if g.pairFirst then g.r.pc + 1 else slotAfter g.r.pc (lineLive line), transferFrom := none }

/-- Bits that R264 refuses. -/
def State.undefinedSlot (s : State) : State := s.takeException false (Trap.whole .illegalOp 0)

/-- The issuing group has no slot in issue, and no marks of one. -/
def State.unpair (s : State) : State :=
  s.modGroup s.cur fun g => { g with pairFirst := false, pairSecond := false, before := none }

/-- One slot alone (R206): the decoded instruction's meaning at this state. -/
def State.runSlot (s : State) (line : Nat) : Outcome :=
  match lineInstr line (slotNo s.regs.pc) with
  | some i => exec i (s.ready line)
  | none => .next (s.ready line).undefinedSlot

/-- The group waits, and nothing of the pair has taken effect. -/
def State.pairWaits (s : State) : State := { s with last := .held 0, tried := s.cur :: s.tried }

/-- The marks of the second slot of a pair (R76, R81, R213), which reads CNTS and TAGS as they were before the pair. -/
def State.asSecond (s0 t : State) (line : Nat) : State :=
  t.modMe fun g =>
    { g with pairFirst := false, pairSecond := true, before := some (s0.me.cnts, s0.myGang.tags),
             succ := slotAfter g.r.pc (lineLive line) }

/-- An instruction that began at u has come to wait with nothing of its own begun. -/
def State.notBegun (u v : State) : Bool :=
  match v.last with
  | .held _ => ({ v.me with blocked := none } : Group) == { u.me with blocked := none }
  | _ => false

/-- The second slot of a pair: nothing that it reads was written by the first (R253). -/
def State.runSecond (s0 t : State) (line : Nat) : Outcome :=
  let u := s0.asSecond t line
  let r : Outcome :=
    match lineInstr line (slotNo u.regs.pc) with
    | some j => exec j u
    | none => .next u.undefinedSlot
  match r with
  | .next v =>
    match v.last with
    | .held _ => if u.notBegun v then .next s0.pairWaits else .next v
    | _ => .next v.unpair
  | x => x

/-- The second slot is not ready beside the first (R206): at this state it would wait. A pair whose first slot is on its way
has issued. -/
def State.secondWaits (s : State) (line : Nat) : Bool :=
  match lineInstr line (slotNo s.regs.pc + 1) with
  | none => false
  | some j =>
    let u := s.asSecond (s.modMe fun g => { g with r := { g.r with pc := g.r.pc + 1 }, ric := g.ric + 1 }) line
    s.me.errand?.isNone && (match exec j u with | .next v => u.notBegun v | _ => false)

/-- BALEST and BALEPA after a pair of a BALE and an SWR to BALEST: the baler's set takes effect after the clear (R80). -/
def pairStatus (i j : Instr) (s v : State) : State :=
  match i, j with
  | .bale _, .swr o =>
    if o.dst = .x 23 then
      match exec i (s.setRegs (s.regs.writeSpecial 23 (s.regs.getS o.a.num))) with
      | .next t => v.setRegs { v.regs with psn := t.regs.psn, ovf := t.regs.ovf, balepa := t.regs.balepa }
      | _ => v
    else v
  | _, _ => v

/-- The rules of R253 hold for the instruction of a pair's first slot and the bits of its second; where the opcode of the
second is none, they are those for the first slot alone (R254, log 26). -/
def pairRules (i : Instr) (second : BitVec 96) : Bool :=
  match namedInstr second with
  | some j => pairLegal i j
  | none => firstLegal i

/-- A marked pair (R206, R213, R254). -/
def State.runPair (s : State) (line : Nat) : Outcome :=
  let k := slotNo s.regs.pc
  let s1 := s.ready line
  match lineInstr line k with
  | none => .next s1.undefinedSlot.unpair
  | some i =>
    if !pairRules i (lineSlot line (k + 1)) then .next s1.undefinedSlot.unpair
    else if s1.secondWaits line then .next s.pairWaits
    else
      match exec i s1 with
      | .next t =>
        if t.last = .retired then
          match s.runSecond t line, lineInstr line (k + 1) with
          | .next v, some j => .next (if v.last = .retired then pairStatus i j s1 v else v)
          | x, _ => x
        else .next t.unpair
      | x => x

/-- The slot or the pair at the group's PC, its line held and checked. -/
def State.runLine (s : State) (line : Nat) : Outcome :=
  match slotCheck s.me line with
  | some t => .next (s.takeException false t)
  | none =>
    if linePair line (slotNo s.regs.pc) then s.runPair line
    else
      match s.runSlot line with
      | .next t =>
        match t.last with
        | .held _ => .next t
        | _ => .next t.unpair
      | x => x

/-! ### One move of a group -/

/-- A cause that waits for the group's next issue (R217, R247). -/
def denyTrap (d : Cause × BitVec 32 × Word) : Trap :=
  { cause := d.1, lanes := d.2.1, addr := d.2.2, wr := false, fetch := false, mal := false }

/-- A cause that waits for the group's next issue is taken without a fetch: the slot's marks are those of its line, where that can
still be read (log 79). -/
def State.takeDenied (s : State) (d : Cause × BitVec 32 × Word) : State :=
  let s := match s.lineNow s.regs.pc with | some line => s.placed line | none => s
  s.takeException false (denyTrap d)

/-- The move a group makes when its turn comes: what its VOLST has taken is linked first (R170). -/
def State.attempt (s : State) (grp : Nat) : Outcome :=
  let s := ({ s with cur := grp } : State).linkWalk.unpair
  let g := s.me
  let d := s.myDbg
  if g.stage42 = .leaving then .next s.finishLeaving
  else if d.att && d.hreq && !isCallable grp then
    .next { s.debugHalt false with last := .halted, tried := [] }
  else if s.atFirmware then supervise s
  else
    match g.deny with
    | some x => .next (s.takeDenied x)
    | none =>
      if !s.lineHeld grp then .next (s.fetchFor grp)
      else
        let p := s.fetchLine grp
        match p.2 with
        | .error t => .next (p.1.takeException false t)
        | .ok line => p.1.runLine line

/-- The move was an issue: it neither waited nor was an event of its own. -/
def Ended.issued : Ended → Bool
  | .retired => true
  | .trapped _ => true
  | .parked => true
  | _ => false

/-- A group's next move would be an issue (R206). -/
def State.isReady (s : State) (grp : Nat) : Bool :=
  s.mayIssue grp && (match s.attempt grp with | .next t => t.last.issued | _ => false)

/-- The consecutive issue cycles of a stall's groups after an issue (R205). -/
def State.noteStreak (s0 s : State) (stall grp : Nat) : State :=
  let other := (s0.stall stall).ages.any fun k => k != grp && s0.isReady k
  let s := (s0.stall stall).ages.foldl
    (fun s k => if k != grp && (s.group k).streak != 0 then s.modGroup k fun g => { g with streak := 0 } else s) s
  s.modGroup grp fun g => { g with streak := if other then g.streak + 1 else 0 }

/-- A debugger's step has been made (R232): RUN is cleared by the issue, and a step halts the group after it. -/
def State.noteDebug (s0 s : State) (grp : Nat) : State :=
  let g0 := s0.group grp
  let stall := (s0.gang (gangOf grp)).stall
  let d := kget DbgCtl.off (s.stall stall).dbg g0.slot
  if !d.att || isCallable grp then s
  else
    let s1 := if d.run then s.setDbg stall g0.slot { d with run := false } else s
    if d.step && !d.halted then
      if (s.group grp).standing = .slot && (s.gang (gangOf grp)).live then
        let s2 := s1.setDbg stall g0.slot { d with run := false, step := false, halted := true }
        s2.appendEvent (s2.eventOf 12 0 (s.group grp).r.pc grp (s.group grp).r.taskId)
      else s1.setDbg stall g0.slot { d with run := false, step := false }
    else s1

/-- A run in the callable slot has made one issue more (R367). -/
def State.noteRun (s : State) (grp : Nat) : State :=
  if isCallable grp then s.modGroup grp fun g => { g with issues := g.issues + 1 } else s

/-- The slots that a group's issue takes, as the instructions they decode to: two for a pair, none for a trap of its fetch or one
that waited for it (R193). -/
def State.slotsIssued (s : State) (grp : Nat) : List (Option Instr) :=
  let s : State := { s with cur := grp }
  if s.lineHeld grp && s.me.deny.isNone && !s.atFirmware then
    match (s.fetchLine grp).2 with
    | .error _ => []
    | .ok line =>
      if (slotCheck s.me line).isSome then []
      else (slotsAt line (slotNo s.regs.pc)).map (lineInstr line)
  else []

/-- The scratchpad offsets at which an instruction's lanes access their own stall's banks (R89). -/
def bankOffsets (r : Regs) : Instr → List Nat
  | .ldL o | .stL o | .atomL o => r.active.map fun l => (eaOffset o r l).toNat
  | .lds o | .sts o => if o.space = 1 then [(eaScalar o r).toNat] else []
  | _ => []

/-- The cycles of bank time beyond the first of accesses at some offsets: the distinct bank words in the busiest bank (R89). -/
def bankExtra (offs : List Nat) : Nat :=
  let words := (offs.map (· / 16)).eraseDups
  (((List.range 32).map fun b => words.countP fun w => w % 32 = b).foldl max 0) - 1

/-- The stall notes an issue: its slots, a pair, the bank conflicts of what has retired, a RANGE_LOCKED trap (R193, log 75). -/
def State.countIssue (s : State) (stall : Nat) (r : Regs) (slots : List (Option Instr)) : State :=
  s.modStall stall fun st =>
    let st := (st.tallied 1 slots.length).tallied 2 (slots.length / 2)
    if s.last = .trapped Cause.rangeLocked.code then st.tallied 8 1
    else if s.last = .retired then st.tallied 4 ((slots.map fun i => bankExtra ((i.toList).flatMap (bankOffsets r))).sum)
    else st

/-- What an issue leaves behind: ages, the count of a callable's issues, the stall's counts, a debugger's step, the progress of
replay (R193, R205, R222, R232, R367). -/
def State.afterIssue (s0 s : State) (stall grp : Nat) : State :=
  if s.last.issued then
    let t := ((s0.noteStreak s stall grp).noteRun grp).countIssue stall (s0.group grp).r (s0.slotsIssued grp)
    (s0.noteDebug t grp).advanceReplay (gangOf grp)
  else s

/-- A group issues. -/
def State.issueGroup (s : State) (stall grp : Nat) : Outcome :=
  match s.attempt grp with
  | .next t => .next (s.afterIssue t stall grp)
  | x => x

/-! ### Whose turn it is -/

/-- The group whose turn it is on a stall: the run in the callable slot, else the oldest that has not been found waiting
(R205, R206). -/
def State.nextIssuer (s : State) (stall : Nat) : Option Nat :=
  let st := s.stall stall
  (st.runKey.toList ++ st.ages).find? fun k => s.mayIssue k && !s.tried.contains k

/-- The issues in a row after which a group takes the youngest age (R205). -/
def streakLimit : Nat := 64

/-- The group of a stall that has issued so often in a row that it takes the youngest age, whether or not it is ready now
(R205). -/
def State.streakEnds (s : State) (stall : Nat) : Option Nat :=
  (s.stall stall).ages.find? fun k => streakLimit ≤ (s.group k).streak

/-- A stall's move (R205, R206). -/
def State.stallTurn (s : State) (stall : Nat) : Outcome :=
  match s.streakEnds stall with
  | some k => execIssueAgeRotate k s
  | none =>
    match s.nextIssuer stall with
    | none => idle s
    | some k =>
      if isCallable k && callableIssues ≤ (s.group k).issues then execCallableIssueLimit stall s
      else s.issueGroup stall k

/-- The group whose turn it was last could not issue. -/
def Ended.waited : Ended → Bool
  | .held _ => true
  | _ => false

/-- The stalls in their turns: the latest issuer's stall comes last, but first when its group could not issue. -/
def State.stallOrder (s : State) : List Nat :=
  let ks := kkeys s.stalls
  let here := s.runsOn (gangOf s.cur)
  let from' := if s.last.waited then here else here + 1
  ks.filter (fun k => from' ≤ k) ++ ks.filter (fun k => k < from')

/-- Events of one group that may be enabled. -/
def State.groupEvents (s : State) (k : Nat) (g : Group) : List (State → Outcome) :=
  g.ops.zipIdx.flatMap (fun p =>
    [execLoadComplete k ⟨p.2, List.range p.1.accs.length⟩, execStoreAck k p.2, execRayQueryComplete k p.2]) ++
  [execStagingCheck k, execSectionAccept k, execRemoteAccessArrive k, execRemoteReply k, execClaimRehomeDone k, execShootdownAck k,
   execProbeResult k, execProbeLinkLimit k] ++
  (g.ops.flatMap Op.pendingCells).map (fun c => execHomeRegistration (s.runsOn (gangOf k)) (c.1 / 4))

/-- Events of one stall that may be enabled. -/
def stallEvents (t : Nat) (st : Stall) : List (State → Outcome) :=
  [execCreditCommit t, execCartStart t 0, execCartComplete t 0, execCartgComplete t 0, execBaleComplete t 0, execMloopComplete t,
   execMdrainComplete t, execMclrRun t, execCallableRunStart t, execSpillMove t, execPackingMove t] ++
  (kkeys st.bins).map (fun b => execBinTimeout t b) ++ [execBinGroupStart t]

/-- The internal events that the panel offers, in the order in which they are taken (log 1). -/
def State.offers (s : State) : List (State → Outcome) :=
  (if s.launches.isEmpty then []
   else ((List.range 288).find? fun n => !(s.stable n).synced && !(s.stable n).lost).toList.map fun n =>
     execTimeFirstSync n s.ptime 0) ++
  s.groups.flatMap (fun p => s.groupEvents p.1 p.2) ++ s.stalls.flatMap (fun p => stallEvents p.1 p.2) ++
  s.stables.flatMap (fun p => execGroomStart p.1 :: (List.range p.2.jobs.length).map fun i => execGroomComplete p.1 i) ++
  (List.range 4).map execZeroLengthReadCompletion ++
  (s.groups.filter fun p => s.preempted (lidOf (gangOf p.1))).map (fun p => execGroupPark p.1) ++
  s.groups.map (fun p => execGroupWake p.1) ++
  s.gangs.flatMap (fun p =>
    [execGbarComplete p.1, execGangRestore p.1, execTaskRunStart p.1, execGangReplacement p.1, execGangRetire p.1 (s.gangCycles p.2),
     execStallHosting p.2.stall]) ++
  (s.groups.filter fun p => p.2.standing = .slot && p.2.blocked.isSome && s.slotClaimed (s.runsOn (gangOf p.1))).map
    (fun p => execGroupPark p.1) ++
  s.yards.map (fun p => execYardRoundRelease p.1) ++ (kkeys s.lq).map (fun q => execDistributorTakeBlock q) ++
  (kkeys s.lq).map (fun q => execStarvationLimit q) ++
  [execFetchwServe, execGangPlacement, execTlbshootAck, execTmapsyncDone, execAttestationReportDone]

/-- The first event of a list that is enabled, else another move. -/
def State.firstEnabled (s : State) (other : Outcome) : List (State → Outcome) → Outcome
  | [] => other
  | f :: fs =>
    match f s with
    | .next t => if t.last = .idle then s.firstEnabled other fs else .next t
    | x => x

/-- A cycle of the stable clock ends with this tick of panel time: 1,000 cycles in 1,176 ticks (R19, R192). -/
def cycleEnds (p : Nat) : Bool := (p - 1) * 1000 / 1176 < p * 1000 / 1176

/-- The cycles that end with a tick: one of every stall, in which the counters of the stalls that stand count (R193, log 75). -/
def State.endCycles (s : State) : State :=
  if cycleEnds s.ptime.toNat then
    { ((s.stalls.filter fun p => !p.2.lost).map Prod.fst).foldl (State.counted · []) s with cycles := s.cycles + 1 }
  else s

/-- The panel's own tick. -/
def State.ownTick (s : State) : Outcome :=
  match execPanelTimeTick s with
  | .next t => .next t.endCycles
  | x => x

/-- An issue where some group's turn has come, else a tick of panel time. -/
def State.issueOrTick (s : State) : Outcome :=
  match s.stallOrder.find? fun t => (s.nextIssuer t).isSome with
  | some t => s.stallTurn t
  | none => s.ownTick

/-- The move the panel makes by itself (log 1): panel time ticks after every issue; then come the events that are
enabled, then the next issue. -/
def State.scheduled (s : State) : Outcome :=
  if s.last.issued then s.ownTick else s.firstEnabled s.issueOrTick s.offers

/-- A move of the panel: what the agenda names next, or the panel's own choice. -/
def State.move (s : State) : Outcome :=
  match s.agenda with
  | .event i :: rest =>
    if i.isEncoded then idle { s with agenda := rest } else exec i { s with agenda := rest }
  | .issue t :: rest => State.stallTurn { s with agenda := rest } t
  | [] => s.scheduled

/-! ### Placing one instruction -/

/-- A launch of one gang of one group, as a loaded block would give it. -/
def loneLaunch : Launch :=
  { Launch.none with gx := 1, gy := 1, gz := 1, next := 1, scrSize := 0, roles :=
      [{ entry := 0x10000, vbudget := 64, groups := 1, carryV := 0, carryS := 0, cranges := [], rranges := [] }] }

/-- Its gang and its group by their keys: launch 1, gang 0, group 0, on stall 0. -/
def loneGang : Nat := gangKey 1 0
def loneGroup : Nat := groupKey loneGang 0

/-- The line that holds one slot, a legal target. -/
def loneLine (w : BitVec 96) : Nat := encodeLine [w] 0 1

/-- A leaf entry that maps 64 KiB of panel DRAM at physical address 0 for reading and fetching. -/
def lonePte : Word := 0b1011

/-- A panel whose firmware runs and that has placed the lone gang. -/
def State.loneStart (s : State) : State :=
  let r := s.startRegs 1 0 0x10000 0xFFFFFFFF
  { s with
    loader := { s.loader with state := 2 }
    cfg := { s.cfg with ptEn := true }
    launches := kinsert s.launches 1 loneLaunch
    gangs := kinsert s.gangs loneGang { Gang.fresh with slotsMax := 1 }
    groups := kinsert s.groups loneGroup { Group.fresh with r := r, start := r, vbudget := 64, transferFrom := some 0 }
    stables := kinsert s.stables 0 { s.stable 0 with synced := true } }

/-- The instruction's bits as the line at the lone group's PC, held by stall 0, whose turn comes next (log 2). -/
def State.placeWord (s : State) (nbits w : Nat) : State :=
  let s := s.loneStart
  let line := loneLine (BitVec.ofNat 96 (w % 2 ^ nbits))
  let st := s.stall 0
  let entry : TlbEntry := { vpn := 1, large := false, pte := lonePte }
  { s.setStall 0 { (st.holdLine 0x10000 line) with ages := [loneGroup], utlb := tlbTouch 32 st.utlb entry } with
    agenda := [.issue 0], tried := [], cur := loneGroup }

end Sys2Proof.Machine
end

