-- ==== Sys2Proof/Machine/Step.lean ====
section
/-!
DEFINITION. One step of the panel: a move of one agent (log 1), and the placing of an instruction where the next step
fetches it (log 2).
-/

namespace Sys2Proof.Machine

/-- One step. -/
def step (s : State) : Host.Outcome State Fault Refusal := s.move

/-- The state with an instruction's bits where the next step fetches and issues it. -/
def State.withFetchWord (s : State) (nbits w : Nat) : State := s.placeWord nbits w

end Sys2Proof.Machine
end

