-- ==== Sys2Proof/Safety.lean ====
section
/-!
DEFINITION. What counts as a safe run: one whose steps neither fault nor are refused. And the terms in which statements
say when an instruction's own effect takes place and what its retirement leaves.
-/

namespace Sys2Proof

open Sys2Proof.Machine

/-- The step from a state answers a next state. -/
def SafeStep (s : State) : Prop := ∃ t, step s = .next t

/-- The first n steps from a state each answer a next state. -/
def SafeRun : Nat → State → Prop
  | 0, _ => True
  | n + 1, s => ∃ t, step s = .next t ∧ SafeRun n t

/-- The group in issue is g, and nothing but the instruction's own rules decides what its issue does. -/
structure Ready (i : Instr) (s : State) (g : Group) : Prop where
  /-- the group stands at `cur` -/
  here : s.group? s.cur = some g
  /-- TRET stands in a callable, and a callable uses only what R367 lets it use -/
  place : placeOk i s.cur = true
  /-- no cause waits for the group's next issue (R217, R247) -/
  allowed : g.deny = none
  /-- the bits pass R264 -/
  legal : i.defect = none
  /-- the vector operands lie below VBUDGET (R74) -/
  budget : budgetOk i g = true
  /-- no outstanding operation has still to write a register that the instruction names (R75) -/
  free : interlocked i g = false
  /-- the group has used up its log (R225) -/
  live : g.replay = []

/-- The state after an instruction of group g has retired with registers r and no other effect: the next PC is the
successor, RIC has risen by one, and the wait that the group may have stood in is over (R178, R250). -/
def Machine.State.retiredAs (s : State) (g : Group) (r : Regs) : State :=
  { s with
    groups := kinsert s.groups s.cur
      { g with r := { r with pc := g.succ }, ric := g.ric + 1, blocked := none, waitSince := none }
    last := .retired
    tried := [] }

/-- The memories are in canonical form: global memory with its owners and its poison, the loft, the tables of stalls and
barns, and every stall's scratchpad. Every step keeps this (Obligations.CanonicalKept). -/
structure Machine.State.Canonical (s : State) : Prop where
  gmem : s.gmem.wf = true
  loft : s.loft.wf = true
  owners : kwf 0 s.owners = true
  poison : kwf false s.poison = true
  barns : kwf Barn.fresh s.barns = true
  stalls : kwf Stall.fresh s.stalls = true
  scratch : ∀ p ∈ s.stalls, p.2.scratch.wf = true

end Sys2Proof
end

