-- ==== Sys2Proof/Certificates/Slice0/Obligations.lean ====
section
/-!
DEFINITION. The statements for the provers. Each says which rules it formalises; what a statement says of an instruction it
says under `Ready`, for every form and operand, and where it names a whole next state it says with it that nothing else
changes.
-/

namespace Sys2Proof.Claim

open Sys2Proof.Machine

/-- The value of n bits in a scalar register: sign-extended for a signed type, zero-extended for any other (R54). -/
def extended {n : Nat} (t : ETy) (x : BitVec n) : Word := if t.signed then x.signExtend 64 else x.setWidth 64

/-- The low n bits of operands A, B and C of a scalar instruction of an n-bit type (R271). -/
def lowA (o : Slot) (r : Regs) : BitVec o.ty.bits := (scalarTyOf o r o.a).setWidth o.ty.bits
def lowB (o : Slot) (r : Regs) : BitVec o.ty.bits := (scalarTyOf o r o.b).setWidth o.ty.bits
def lowC (o : Slot) (r : Regs) : BitVec o.ty.bits := (scalarTyOf o r o.c).setWidth o.ty.bits
/-- Operand B as the count or control word that it is in a shift or a field instruction: all 64 bits (R272, R274). -/
def wordB (o : Slot) (r : Regs) : Word := scalarTyOf o r o.b

/-- The instruction completes: the group retires with sd holding a value, and nothing else changes. -/
def givesScalar (i : Instr) (o : Slot) (x : Regs → Word) : Prop :=
  ∀ s g, Ready i s g → exec i s = .next (s.retiredAs g (g.r.setDst o.dst (x g.r)))

/-- The instruction completes with a value of its type's width, extended to the scalar register. -/
def givesTyped (i : Instr) (o : Slot) (x : Regs → BitVec o.ty.bits) : Prop :=
  givesScalar i o fun r => extended o.ty (x r)

/-- The group after a transfer to a target from its own slot (R250, R251): the target's TGT bit is still to be checked. -/
def jumped (g : Group) (target : Word) : Group := { g with succ := target, transferFrom := some g.r.pc }

/-- The line address of an instruction address, and the slot that a displacement of IMM names (R250, R270): bits [31:3]
count lines, bits [2:0] are the slot. -/
def lineOf (pc : Word) : Word := pc &&& 0xFFFFFFFFFFFFFFC0
def displaced (o : Slot) (pc : Word) : Word :=
  lineOf pc + (o.imm.extractLsb' 3 29).signExtend 64 * 64 + (o.imm.extractLsb' 0 3).setWidth 64

/-- The lowest set bit of a mask, alone. -/
def lowest (m : BitVec 32) : BitVec 32 := m &&& -m

/-- The lanes of a mask above a lane. -/
def above (m lane : BitVec 32) : BitVec 32 := m &&& ~~~(lane ||| (lane - 1))

/-- The registers after an element operation of an n-bit type on every active lane (R290): element e of an active lane of
the destination takes f of the elements e of the sources. -/
def lanewise (o : Slot) (f : BitVec o.ty.bits → BitVec o.ty.bits → BitVec o.ty.bits → BitVec o.ty.bits) (r : Regs) : Regs :=
  r.mapLanes o.ty o.dst fun l =>
    mapElems o.ty.bits (fun a b c => (f (BitVec.ofNat _ a) (BitVec.ofNat _ b) (BitVec.ofNat _ c)).toNat)
      (laneOf o r o.a o.ty l) (laneOf o r o.b o.ty l) (laneOf o r o.c o.ty l)

/-- The instruction completes with an element operation, and nothing else changes. -/
def givesLanes (i : Instr) (o : Slot)
    (f : BitVec o.ty.bits → BitVec o.ty.bits → BitVec o.ty.bits → BitVec o.ty.bits) : Prop :=
  ∀ s g, Ready i s g → exec i s = .next (s.retiredAs g (lanewise o f g.r))

/-- The instruction completes with an operation on the values of float elements, rounded to the type; the NA bits of A and
B are applied first (R261, R291). -/
def givesFloats (i : Instr) (o : Slot) (f : FFmt → Nat → Nat → Nat → Nat) : Prop :=
  ∀ s g, Ready i s g → exec i s = .next (s.retiredAs g (g.r.mapLanes o.ty o.dst fun l =>
    mapElems o.ty.bits
      (fun a b c => f (tyFmt o.ty) ((tyFmt o.ty).negAbs o.negA o.absA a) ((tyFmt o.ty).negAbs o.negB o.absB b) c)
      (laneOf o g.r o.a o.ty l) (laneOf o g.r o.b o.ty l) (laneOf o g.r o.c o.ty l)))

/-- A lane exchange under a source rule (R303, R304): lane l takes lane x of its tile where the rule names one, else zero
under FILL and its own value without. -/
def exchanged (o : Slot) (src : Nat → Nat → Nat → Option Nat) (r : Regs) : Regs :=
  let wide := o.wid = 3
  let lane := fun (l : Nat) => if wide then (r.getVV o.a.num l).toNat else (r.getV o.a.num l).toNat
  r.mapLanes (if wide then .n64 else .n32) o.dst fun l =>
    match src (32 >>> r.lpart.toNat) l (laneOf o r o.b .n32 l) with
    | some k => lane k
    | none => if o.bit34 then 0 else lane l

/-- The active lanes that share lane l's tile, in ascending order (R36). -/
def mates (r : Regs) (l : Nat) : List Nat :=
  (List.range 32).filter fun k => r.exm.getLsbD k && k / (32 >>> r.lpart.toNat) = l / (32 >>> r.lpart.toNat)

/-- The instruction completes with lane l of its destination, of a type, taking a value. -/
def givesLane (i : Instr) (o : Slot) (t : ETy) (f : Regs → Nat → Nat) : Prop :=
  ∀ s g, Ready i s g → exec i s = .next (s.retiredAs g (g.r.mapLanes t o.dst (f g.r)))

/-- The group g in issue has retired as g' in t: the next PC is its successor and RIC has risen by one (R178, R250). -/
structure Retired (s t : State) (g g' : Group) : Prop where
  last : t.last = .retired
  cur : t.cur = s.cur
  here : t.group? s.cur = some g'
  pc : g'.r.pc = g.succ
  ric : g'.ric = g.ric + 1

/-- The registers of a group are as before but for PC. -/
def sameRegs (g g' : Group) : Prop := g'.r = { g.r with pc := g'.r.pc }

/-- What a step that reads at homes does not change: the latest value and the poison of every byte of global memory, the loft, and
every stall's scratchpad (R91, R97, R102, R104). A home slice that makes room for the line may bring owned words home, which
changes none of these (R124, R125). -/
structure SameReads (s t : State) : Prop where
  reads : ∀ loc, t.coherent loc = s.coherent loc
  poison : ∀ loc, t.poisonAt loc = s.poisonAt loc
  loft : t.loft = s.loft
  scratch : ∀ n, (t.stall n).scratch = (s.stall n).scratch

/-- What a step that reads at no home does not change: the global memory's bytes at their homes, who owns which word, poison, the
loft, and every stall's scratchpad (R91, R97, R104, R123). -/
structure SameBytes (s t : State) : Prop where
  gmem : t.gmem = s.gmem
  owners : t.owners = s.owners
  poison : t.poison = s.poison
  loft : t.loft = s.loft
  scratch : ∀ n, (t.stall n).scratch = (s.stall n).scratch

/-- What an instruction that performs no access at its issue does not change: those bytes, and every line of an L1 (R96). -/
structure SameMemory (s t : State) : Prop extends SameBytes s t where
  lines : ∀ n, (t.stall n).l1 = (s.stall n).l1

/-- The instruction ended with an operation of its group, counted in LD or ST, as the latest of its list (R187). -/
def counted (ld : Bool) (g g' : Group) (op : Op) : Prop :=
  g'.ops.length = g.ops.length + 1 ∧ g'.ops.getLast? = some op ∧ op.counted = true ∧ op.countsLd = ld ∧
  g'.ld = g.ld + ld.toNat ∧ g'.st = g.st + (!ld).toNat

/-- A group that can begin a boundary at once (R42, R247, R279): no serialised region, no outstanding access, no port whose
stores wait for their zero-length read, no store that failed at its home, and no boundary begun or owed. -/
structure Starts (g : Group) : Prop where
  serial : g.r.serial = false
  ld : g.ld = 0
  st : g.st = 0
  zlr : g.zlr = []
  stored : g.storeFault = none
  stage : g.stage42 = .none
  owed : g.incomplete = none

/-- The credit of the group in issue has been checked (R42, R45, R144, R181): nothing of it is outstanding, every delivery
has been checked and none has failed, no store has failed, and its items and log entries have room. -/
structure Creditable (u : State) : Prop where
  ld : u.me.ld = 0
  st : u.me.st = 0
  zlr : u.me.zlr = []
  stored : u.me.storeFault = none
  checked : ∀ d ∈ u.me.deliveries, d.checked = true ∧ d.failed = none
  items : u.itemRoom u.here u.me.stagedItems = true
  intake : u.intakeRoom u.me = true

/-- The credit takes place: its records find the blocks they need too (R177). -/
structure Credits (u : State) : Prop extends Creditable u where
  blocks : ∀ sec, u.blockRoom sec = true

/-- The boundary completes (R42): the stint is closed with the successor as next PC, and the instruction retires. What
this does is said by StintClose. -/
def crossing (u : State) (next : AfterSection) : State := (u.closeStint next u.me.succ (u.me.ric + 1)).retire

/-- An own effect performed outside the stall: its reply is written, and held with the section (R224). -/
def replied (u : State) (ws : List RegWrite) : State :=
  u.modMe fun g => { g with r := g.r.writes ws, heldReply := some (g.r.pc, ws) }

/-- The group's log takes an entry with a payload of n bytes (R182). -/
def logRoom (g : Group) (n : Nat) : Prop := g.logSize + (24 + (n + 15) / 16 * 16) ≤ 256 * 1024

/-- An entry at the end of the group's log (R182): its kind, its key and the register writes that it holds. -/
def logs (g g' : Group) (kind : Nat) (key : Word) (ws : List RegWrite) : Prop :=
  ∃ e, g'.effects = g.effects ++ [e] ∧ e.kind = kind ∧ e.ric = g.ric + 1 ∧ e.key = key ∧ e.writes = ws

/-- An engine command need not wait at issue (R131, R153, R182, R189): the range-lock table and the log have room, its tag
is not in use, and no store of the group to its pages is on its way; and the group's loads have been performed. -/
structure Admits (s : State) (g : Group) (spans : List Span) (pages : List (Nat × Nat)) (tag : Option Nat) (n : Nat) :
    Prop where
  locks : (s.stall s.here).locks.length + spans.length ≤ 16
  tag : s.tagBusy tag = false
  stores : g.storesTo pages = false
  log : logRoom g n
  loads : ∀ op ∈ g.ops, op.performed = true

/-- An engine command has been entered for the group in issue (R132, R182, R189): it is numbered, its intervals are
registered, its tag's bit is 0, its entry in the log is open, and no memory has changed. -/
structure Entered (s t : State) (g g' : Group) (eng : Eng) (spans : List Span) (key : Word) (c : Cmd) : Prop where
  id : c.id = s.nextCmd ∧ t.nextCmd = s.nextCmd + 1
  issuer : c.gang = gangOf s.cur ∧ c.grp = s.cur ∧ c.batch = g.r.batchOpen ∧ c.ric = g.ric + 1 ∧ c.pc = g.r.pc ∧
    c.running = false ∧ c.after = s.nextOp
  locks : ∃ q, (t.stall s.here).locks = (s.stall s.here).locks ++ spans.map fun x => s.lockOf x eng q s.nextCmd
  tag : (t.gang (gangOf s.cur)).tags = match c.tag with
    | some n => (s.gang (gangOf s.cur)).tags &&& ~~~(1#64 <<< n)
    | none => (s.gang (gangOf s.cur)).tags
  entry : ∃ e, g'.effects.length = g.effects.length + 1 ∧ g'.effects.getLast? = some e ∧ e.kind = 4 ∧
    e.ric = g.ric + 1 ∧ e.key = key ∧ e.complete = false ∧ e.cmd = some c
  memory : SameMemory s t

/-- An event of the panel takes place and leaves a state. -/
def occurs (i : Instr) (s t : State) : Prop := exec i s = .next { t with last := .event, tried := [] }

/-- A write that only the panel's owner may make and that its register's own rule may refuse (R237). -/
def byOwner (i : Instr) (s : State) (port : Nat) (allowed : Bool) (t : State) : Prop :=
  let mine := s.own.owned = true ∧ s.own.owner.toNat = port
  (¬mine → occurs i s (s.setPort port { s.port port with denied := true })) ∧
  (mine → allowed = false → occurs i s (s.setPort port { s.port port with refused := true })) ∧
  (mine → allowed = true → occurs i s t)

/-- The panel's owner has changed (R239): no offer stands, EPOCH has risen, vector 1 has been signalled at every port whose
link is up, and nothing else has changed. -/
def ownerChanged (s t : State) (owner : BitVec 2) (owned : Bool) : Prop :=
  t.own = { s.own with owner := owner, owned := owned, hreq := false, epoch := s.own.epoch + 1 } ∧
  (∀ p, p < 4 → t.port p = if (s.port p).link then { s.port p with msix := (s.port p).msix ++ [1] } else s.port p) ∧
  { t with own := s.own, ports := s.ports } = s

end Sys2Proof.Claim

open Sys2Proof Sys2Proof.Machine Sys2Proof.Claim

/-- ADD, SUB, MUL, MULH, MULHN, MIN, MAX, MINN, MAXN, SEL, LEA (R271): sd := EXT of the named operation on n bits. -/
def Obligations.ScalarArithmetic : Prop := ∀ o : Slot,
  givesTyped (.add o) o (fun r => lowA o r + lowB o r) ∧
  givesTyped (.sub o) o (fun r => lowA o r - lowB o r) ∧
  givesTyped (.mul o) o (fun r => lowA o r * lowB o r) ∧
  givesTyped (.mulh o) o (fun r => BitVec.ofInt _ ((lowA o r).toInt * (lowB o r).toInt / 2 ^ o.ty.bits)) ∧
  givesTyped (.mulhn o) o (fun r => BitVec.ofNat _ ((lowA o r).toNat * (lowB o r).toNat / 2 ^ o.ty.bits)) ∧
  givesTyped (.min o) o (fun r => if (lowB o r).slt (lowA o r) then lowB o r else lowA o r) ∧
  givesTyped (.max o) o (fun r => if (lowA o r).slt (lowB o r) then lowB o r else lowA o r) ∧
  givesTyped (.minn o) o (fun r => if (lowB o r).ult (lowA o r) then lowB o r else lowA o r) ∧
  givesTyped (.maxn o) o (fun r => if (lowA o r).ult (lowB o r) then lowB o r else lowA o r) ∧
  givesTyped (.sel o) o (fun r => if scalarTyOf o r o.c ≠ 0 then lowA o r else lowB o r) ∧
  givesTyped (.lea o) o (fun r => lowA o r + lowB o r <<< o.imm.toNat)

/-- A comparison under COND on two n-bit values (R260), signed or unsigned. -/
def Sys2Proof.Claim.compared {n : Nat} (signed : Bool) (cond : Nat) (a b : BitVec n) : Bool :=
  match cond with
  | 0 => a == b
  | 1 => a != b
  | 2 => if signed then a.slt b else a.ult b
  | 3 => if signed then a.sle b else a.ule b
  | 4 => if signed then b.slt a else b.ult a
  | _ => if signed then b.sle a else b.ule a

/-- AND, OR, XOR, ANDN, SHL, SHR, SAR, ROL, ROR, CLZ, CTZ, POPC, BREV, CMP (R260, R271, R272): the bitwise operations, and
shifts whose count is the whole of B, so that a count of n or more shifts every bit out; a rotate turns by the count modulo
n; the counts give n at zero where the rule says so, and a comparison gives 1 or 0 for the six conditions that integers
have. -/
def Obligations.ScalarBits : Prop :=
  (∀ o : Slot,
   givesTyped (.and o) o (fun r => lowA o r &&& lowB o r) ∧
   givesTyped (.or o) o (fun r => lowA o r ||| lowB o r) ∧
   givesTyped (.xor o) o (fun r => lowA o r ^^^ lowB o r) ∧
   givesTyped (.andn o) o (fun r => lowA o r &&& ~~~lowB o r) ∧
   givesTyped (.shl o) o (fun r => lowA o r <<< (wordB o r).toNat) ∧
   givesTyped (.shr o) o (fun r => lowA o r >>> (wordB o r).toNat) ∧
   givesTyped (.sar o) o (fun r => (lowA o r).sshiftRight (wordB o r).toNat) ∧
   givesTyped (.rol o) o (fun r => (lowA o r).rotateLeft (wordB o r).toNat) ∧
   givesTyped (.ror o) o (fun r => (lowA o r).rotateRight (wordB o r).toNat)) ∧
  (∀ o : Slot,
   givesScalar (.cmp o) o (fun r => if compared o.ty.signed o.cond (lowA o r) (lowB o r) then 1 else 0) ∧
   givesTyped (.clz o) o (fun r => (lowA o r).clz) ∧
   givesTyped (.ctz o) o (fun r => (lowA o r).ctz) ∧
   givesTyped (.popc o) o (fun r => (lowA o r).cpop) ∧
   givesTyped (.brev o) o (fun r => (lowA o r).reverse))

/-- The field of R274: position p and length m' = min(m, n − p), from the low 16 bits of B. -/
def Sys2Proof.Claim.fieldAt (b : Word) : Nat := b.toNat % 256
def Sys2Proof.Claim.fieldBits (n : Nat) (b : Word) : Nat := min (b.toNat / 256 % 256) (n - fieldAt b)

/-- BFX, BFXS, BFI (R274): the field read with zeros or its sign above it, and the low bits of A laid into C. -/
def Obligations.ScalarFields : Prop := ∀ o : Slot,
  givesTyped (.bfx o) o (fun r =>
    ((lowA o r).extractLsb' (fieldAt (wordB o r)) (fieldBits o.ty.bits (wordB o r))).setWidth o.ty.bits) ∧
  givesTyped (.bfxs o) o (fun r =>
    ((lowA o r).extractLsb' (fieldAt (wordB o r)) (fieldBits o.ty.bits (wordB o r))).signExtend o.ty.bits) ∧
  ∀ s g, Ready (.bfi o) s g → ∃ x : BitVec o.ty.bits,
    exec (.bfi o) s = .next (s.retiredAs g (g.r.setDst o.dst (extended o.ty x))) ∧
    ∀ i, i < o.ty.bits →
      x.getLsbD i =
        if fieldAt (wordB o g.r) ≤ i ∧ i < fieldAt (wordB o g.r) + fieldBits o.ty.bits (wordB o g.r)
        then (lowA o g.r).getLsbD (i - fieldAt (wordB o g.r)) else (lowC o g.r).getLsbD i

/-- DIV, DIVN, REM, REMN (R273): the truncated quotient, or the remainder with the dividend's sign, and the least value by
−1 gives itself; a zero divisor raises DIVIDE with FLMASK all ones and TADDR 0, and nothing is written. -/
def Obligations.ScalarDivide : Prop := ∀ o : Slot, ∀ s g,
  (Ready (.div o) s g → lowB o g.r ≠ 0 →
    exec (.div o) s = .next (s.retiredAs g (g.r.setDst o.dst (extended o.ty ((lowA o g.r).sdiv (lowB o g.r)))))) ∧
  (Ready (.divn o) s g → lowB o g.r ≠ 0 →
    exec (.divn o) s = .next (s.retiredAs g (g.r.setDst o.dst (extended o.ty (lowA o g.r / lowB o g.r))))) ∧
  (Ready (.rem o) s g → lowB o g.r ≠ 0 →
    exec (.rem o) s = .next (s.retiredAs g (g.r.setDst o.dst (extended o.ty ((lowA o g.r).srem (lowB o g.r)))))) ∧
  (Ready (.remn o) s g → lowB o g.r ≠ 0 →
    exec (.remn o) s = .next (s.retiredAs g (g.r.setDst o.dst (extended o.ty (lowA o g.r % lowB o g.r))))) ∧
  ∀ i ∈ [Instr.div o, .divn o, .rem o, .remn o], Ready i s g → lowB o g.r = 0 →
    exec i s = .next (s.takeException false (Trap.whole .divide 0))

/-- NOP, MOVI, MOV, SRD, SWR (R275, R276, R282): the 50-bit immediate, a copy, and the special registers; SRD and SWR of a
supervisor register in user mode raise PRIVILEGE, and an LPART of 5 to 7 raises ILLEGAL_OP with nothing written. -/
def Obligations.Moves : Prop := ∀ (o : Slot) s g,
  (Ready (.nop o) s g → exec (.nop o) s = .next (s.retiredAs g g.r)) ∧
  (Ready (.movi o) s g →
    exec (.movi o) s = .next (s.retiredAs g (g.r.setDst o.dst ((o.mod ++ o.imm).signExtend 64)))) ∧
  (Ready (.mov o) s g → exec (.mov o) s = .next (s.retiredAs g (g.r.setDst o.dst (g.r.getS o.a.num)))) ∧
  (∀ x, Ready (.srd o) s g → s.special s.cur o.a.num = some x → (o.a.num < 32 ∨ g.r.sup = true) →
    exec (.srd o) s = .next (s.retiredAs g (g.r.setDst o.dst x))) ∧
  (Ready (.swr o) s g → s.special s.cur o.dst.num ≠ none → (o.dst.num < 32 ∨ g.r.sup = true) →
    (o.dst.num = 1 → ((g.r.getS o.a.num).extractLsb' 0 3).toNat < 5) →
    exec (.swr o) s = .next (s.retiredAs g (g.r.writeSpecial o.dst.num (g.r.getS o.a.num)))) ∧
  (Ready (.srd o) s g → s.special s.cur o.a.num ≠ none → 32 ≤ o.a.num → g.r.sup = false →
    exec (.srd o) s = .next (s.takeException false (Trap.whole .privilege 0))) ∧
  (Ready (.swr o) s g → s.special s.cur o.dst.num ≠ none → 32 ≤ o.dst.num → g.r.sup = false →
    exec (.swr o) s = .next (s.takeException false (Trap.whole .privilege 0))) ∧
  (Ready (.swr o) s g → o.dst.num = 1 → 5 ≤ ((g.r.getS o.a.num).extractLsb' 0 3).toNat →
    exec (.swr o) s = .next (s.takeException false (Trap.whole .illegalOp 0)))

/-- MBLK, PART, SERB, SERE (R277 to R279): the mask taken from sa and its block skipped when it is empty; the tile width, an
ILLEGAL_OP for more than 4; a serialised region entered at its lowest lane or skipped, continued at the next lane of sa,
and left with sa as the mask. -/
def Obligations.Masks : Prop := ∀ (o : Slot) s g,
  (Ready (.mblk o) s g →
    let m := (g.r.getS o.a.num).extractLsb' 0 32
    exec (.mblk o) s = .next (s.retiredAs (if m = 0 then jumped g (displaced o g.r.pc) else g) { g.r with exm := m })) ∧
  (Ready (.part o) s g → (scalarOf o g.r o.b).toNat ≤ 4 →
    exec (.part o) s = .next (s.retiredAs g { g.r with lpart := (scalarOf o g.r o.b).extractLsb' 0 3 })) ∧
  (Ready (.part o) s g → 4 < (scalarOf o g.r o.b).toNat →
    exec (.part o) s = .next (s.takeException false (Trap.whole .illegalOp 0))) ∧
  (Ready (.serb o) s g → g.r.serial = false →
    let r := g.r.setDst o.dst (g.r.exm.setWidth 64)
    exec (.serb o) s = .next (if g.r.exm = 0 then s.retiredAs (jumped g (displaced o g.r.pc)) r
      else s.retiredAs g { r with serial := true, exm := lowest g.r.exm })) ∧
  (Ready (.serb o) s g → g.r.serial = true →
    exec (.serb o) s = .next (s.takeException false (Trap.whole .illegalOp 0))) ∧
  (Ready (.sere o) s g → g.r.serial = true → g.r.exm ≠ 0 → lowest g.r.exm = g.r.exm →
    let a := (g.r.getS o.a.num).extractLsb' 0 32
    exec (.sere o) s = .next (if above a g.r.exm ≠ 0
      then s.retiredAs (jumped g (displaced o g.r.pc)) { g.r with exm := lowest (above a g.r.exm) }
      else s.retiredAs g { g.r with exm := a, serial := false })) ∧
  (Ready (.sere o) s g → g.r.serial = false →
    exec (.sere o) s = .next (s.takeException false (Trap.whole .illegalOp 0)))

/-- BR, BRC, JMP, CALL, CALLI, RET (R281): the target, the condition on n-bit operands, the link in sd, written after the
target has been read; an untaken BRC goes to the next slot and is no transfer; a BRC under UN or ORD raises ILLEGAL_OP. -/
def Obligations.Branches : Prop := ∀ (o : Slot) s g,
  (Ready (.br o) s g → exec (.br o) s = .next (s.retiredAs (jumped g (displaced o g.r.pc)) g.r)) ∧
  (Ready (.brc o) s g → exec (.brc o) s = .next
    (if compared o.ty.signed o.cond ((g.r.getS o.a.num).setWidth o.ty.bits) ((g.r.getS o.b.num).setWidth o.ty.bits)
      then s.retiredAs (jumped g (displaced o g.r.pc)) g.r else s.retiredAs g g.r)) ∧
  (s.group? s.cur = some g → placeOk (.brc o) s.cur = true → g.deny = none → 6 ≤ o.cond →
    exec (.brc o) s = .next (s.takeException false (Trap.whole .illegalOp 0))) ∧
  (Ready (.jmp o) s g → exec (.jmp o) s = .next (s.retiredAs (jumped g (g.r.getS o.a.num)) g.r)) ∧
  (Ready (.ret o) s g → exec (.ret o) s = .next (s.retiredAs (jumped g (g.r.getS o.a.num)) g.r)) ∧
  (Ready (.call o) s g →
    exec (.call o) s = .next (s.retiredAs (jumped g (displaced o g.r.pc)) (g.r.setDst o.dst g.succ))) ∧
  (Ready (.calli o) s g →
    exec (.calli o) s = .next (s.retiredAs (jumped g (g.r.getS o.a.num)) (g.r.setDst o.dst g.succ)))

/-- The registers of a group that has entered a handler (R84): TCAUSE, FLMASK, TADDR, TPC and EPC of the trap, ESTAT with
the cause, the former mode and the slot's place in its pair, supervisor mode, and the handler's address as PC. -/
def Sys2Proof.Claim.entered (g : Group) (t : Trap) (handler : Word) : Group :=
  { g with
    r := { g.r with
      tcause := BitVec.ofNat 8 t.cause.code, flmask := t.lanes, taddr := t.addr, tpc := g.r.pc, epc := g.r.pc,
      estat := BitVec.ofBool g.pairSecond ++ BitVec.ofBool g.pairFirst ++ BitVec.ofBool g.r.sup ++
        BitVec.ofNat 8 t.cause.code
      sup := true, trapAt := some g.r.pc, pc := handler }
    transferFrom := some g.r.pc, deny := none, pairFirst := false, pairSecond := false, before := none
    blocked := none, waitSince := none }

/-- Taking an exception (R84, R215) outside a callable: MISALIGNED, and the TRAP_INSN of SVC, go to TVEC; of the causes
that are neither TRANSLATION nor a debugger's, those of a group that runs no task, in user mode, go to TRAP_PC where the
launch has one. TRANSLATION parks the group with WAKE code 7, the address and the SEQ of its request, with no register
changed (R217); where the record area has no block for the park record the park is not taken (R177). -/
def Obligations.TrapEntry : Prop := ∀ (s : State) (g : Group) (t : Trap) (svc : Bool),
  s.group? s.cur = some g → isCallable s.cur = false →
  (t.cause ≠ .translation → (t.cause = .misaligned ∨ (t.cause = .trapInsn ∧ svc = true)) →
    s.takeException svc t =
      { s with groups := kinsert s.groups s.cur (entered g t g.r.tvec), last := .trapped t.cause.code, tried := [] }) ∧
  (t.cause ≠ .translation → t.cause ≠ .misaligned → ¬(t.cause = .trapInsn ∧ svc = true) →
    ¬(t.cause = .debug ∧ s.myDbg.att = true) → g.r.taskId = 0 → g.r.sup = false → s.myLaunch.trapPc ≠ 0 →
    s.takeException svc t =
      { s with groups := kinsert s.groups s.cur (entered g t s.myLaunch.trapPc), last := .trapped t.cause.code,
               tried := [] }) ∧
  (t.cause = .translation →
    let s₀ := s.modMe fun g => { g with deny := none, blocked := none, waitSince := none }
    let u := s.takeException svc t
    (s₀.parkRoom = true →
      u.last = .parked ∧
      (∃ g', u.group? s.cur = some g' ∧ g'.r = g.r ∧
        g'.standing = .parked (.translation t.addr (s.evSeq + BitVec.ofNat 16 s.evWaiting.length) t.lanes)) ∧
      (s.evCount < 255 → u.evSeq = s.evSeq + 1 ∧ u.evTail = s.evTail + 1 ∧
        (let e := kget Event.none u.evRing s.evTail.toNat
         e.kind = 1 ∧ e.seq = s.evSeq ∧ e.addr = t.addr ∧ e.wr = t.wr ∧ e.fetch = t.fetch)) ∧
      (255 ≤ s.evCount → u.evRing = s.evRing ∧ u.evSeq = s.evSeq ∧ u.evWaiting.length = s.evWaiting.length + 1)) ∧
    (s₀.parkRoom = false → u = { s₀ with last := .held 0, tried := s.cur :: s.tried }))

/-- ERET, TRAP, SVC and BRK (R83, R215, R282, R283): in supervisor mode ERET goes to EPC in the mode that ESTAT bit 8 names,
and is a transfer to be checked unless EPC is the TPC of the latest trap entry or the slot after it; in user mode it raises
PRIVILEGE. TRAP, SVC and
BRK take their exception, SVC's going to TVEC; a BRK at which a debugger's halt stands retires when the group goes on, and
the mark is gone. -/
def Obligations.SystemInstructions : Prop :=
  (∀ (o : Slot) s g,
   (Ready (.eret o) s g → g.r.sup = true →
     let gone := fun (from' : Option Word) =>
       s.retiredAs { g with succ := g.r.epc, transferFrom := from' } { g.r with sup := g.r.estat.getLsbD 8 }
     ((∃ t, g.r.trapAt = some t ∧ (g.r.epc = t ∨ g.r.epc = s.slotFollowing t)) → exec (.eret o) s = .next (gone none)) ∧
     ((∀ t, g.r.trapAt = some t → g.r.epc ≠ t ∧ g.r.epc ≠ s.slotFollowing t) →
       exec (.eret o) s = .next (gone (some g.r.pc)))) ∧
   (Ready (.eret o) s g → g.r.sup = false →
     exec (.eret o) s = .next (s.takeException false (Trap.whole .privilege 0)))) ∧
  (∀ (o : Slot) s g,
   (Ready (.trap o) s g → exec (.trap o) s = .next (s.takeException false (Trap.whole .trapInsn 0))) ∧
   (Ready (.svc o) s g → exec (.svc o) s = .next (s.takeException true (Trap.whole .trapInsn 0))) ∧
   (Ready (.brk o) s g → s.myDbg.atBrk = false →
     exec (.brk o) s = .next (s.takeException false (Trap.whole .debug 0))) ∧
   (Ready (.brk o) s g → s.myDbg.atBrk = true →
     exec (.brk o) s = .next ((s.setDbg s.myStall g.slot { s.myDbg with atBrk := false }).retiredAs g g.r)))

/-- GTIME, LTIME, IFENCE (R192, R284, R286): a clock reading of the stable that runs the group, entered in the effect log,
and the emptied line store of a group whose stores are done. LCNT is panel time since the stable's reset release, whose moment
is a free value but for a restart's (log 56); GTIME of a synchronised stable is LCNT and LOFF, which is panel time and what the
clock is ahead of it, with no drift between the two (log 74); a reading of GTIME is noted for R136, and where one that the
stable has heard of is no earlier, the reading is made after the ticks of a crossing (the model's choice, log 74). -/
def Obligations.Clocks : Prop := ∀ (o : Slot) s g,
  let stable := stableOf s.here
  let lcnt := s.ptime - (match (s.stable stable).release with | some x => x | none => Config.release s.boots stable)
  let entry := fun (x : Word) => Effect.of 3 g g.r.pc [.s o.dst.num x]
  let logs := fun (x : Word) => { g with effects := g.effects ++ [entry x] }
  let reads := fun (u : State) (x : Word) =>
    exec (.gtime o) s = .next ({ u with readings := kinsert u.readings stable x }.retiredAs (logs x) (g.r.setDst o.dst x))
  (Ready (.ltime o) s g → g.logFull (entry 0) = false →
    exec (.ltime o) s = .next (s.retiredAs (logs lcnt) (g.r.setDst o.dst lcnt))) ∧
  (Ready (.gtime o) s g → g.logFull (entry 0) = false →
    reads (s.afterCrossing stable 5) ((s.afterCrossing stable 5).gtimeOf stable) ∧
    (s.clockClear stable = true → reads s
      (if (s.stable stable).synced then s.ptime + (s.stable stable).ahead else lcnt))) ∧
  (Ready (.ifence o) s g → g.st = 0 → g.storesGranted = true →
    exec (.ifence o) s = .next ((s.modStall s.here fun st => { st with lines := [] }).retiredAs g g.r))

/-- VADD, VSUB, VMUL, VMULH, VMAD, VMIN, VMAX, VAND, VOR, VXOR, VCMP, VSEL, VADDS (R296) on every element. -/
def Obligations.VectorArithmetic : Prop := ∀ o : Slot,
  let sg := o.ty.signed
  let n := o.ty.bits
  givesLanes (.vadd o) o (fun a b _ => a + b) ∧
  givesLanes (.vsub o) o (fun a b _ => a - b) ∧
  givesLanes (.vmul o) o (fun a b _ => a * b) ∧
  givesLanes (.vmulh o) o (fun a b _ =>
    if sg then BitVec.ofInt _ (a.toInt * b.toInt / 2 ^ n) else BitVec.ofNat _ (a.toNat * b.toNat / 2 ^ n)) ∧
  givesLanes (.vmad o) o (fun a b c => a * b + c) ∧
  givesLanes (.vmin o) o (fun a b _ => if (if sg then b.slt a else b.ult a) then b else a) ∧
  givesLanes (.vmax o) o (fun a b _ => if (if sg then a.slt b else a.ult b) then b else a) ∧
  givesLanes (.vand o) o (fun a b _ => a &&& b) ∧
  givesLanes (.vor o) o (fun a b _ => a ||| b) ∧
  givesLanes (.vxor o) o (fun a b _ => a ^^^ b) ∧
  givesLanes (.vcmp o) o (fun a b _ => if compared sg o.cond a b then 1 else 0) ∧
  givesLanes (.vsel o) o (fun a b c => if c = 0 then b else a) ∧
  givesLanes (.vadds o) o (fun a b _ =>
    if sg then BitVec.ofInt _ (max (-2 ^ (n - 1)) (min (2 ^ (n - 1) - 1) (a.toInt + b.toInt)))
    else BitVec.ofNat _ (min (2 ^ n - 1) (a.toNat + b.toNat)))

/-- VSHL, VSHR, VSAR, VCLZ, VCTZ, VFFS, VPOPC, VBREV, VBFX, VBFI (R297 to R299) on every element. -/
def Obligations.VectorBits : Prop := ∀ o : Slot,
  givesLanes (.vshl o) o (fun a b _ => a <<< b.toNat) ∧
  givesLanes (.vshr o) o (fun a b _ => a >>> b.toNat) ∧
  givesLanes (.vsar o) o (fun a b _ => a.sshiftRight b.toNat) ∧
  givesLanes (.vclz o) o (fun a _ _ => a.clz) ∧
  givesLanes (.vctz o) o (fun a _ _ => a.ctz) ∧
  givesLanes (.vffs o) o (fun a _ _ => if a = 0 then 0 else a.ctz + 1) ∧
  givesLanes (.vpopc o) o (fun a _ _ => a.cpop) ∧
  givesLanes (.vbrev o) o (fun a _ _ => a.reverse) ∧
  givesLanes (.vbfx o) o (fun a b _ =>
    let p := b.toNat % 256
    let m := min (b.toNat / 256 % 256) (o.ty.bits - p)
    if o.ty.signed then (a.extractLsb' p m).signExtend _ else (a.extractLsb' p m).setWidth _) ∧
  givesLanes (.vbfi o) o (fun a b c =>
    let p := b.toNat % 256
    let m := min (b.toNat / 256 % 256) (o.ty.bits - p)
    let hole := (BitVec.allOnes m).setWidth o.ty.bits <<< p
    (c &&& ~~~hole) ||| ((a.setWidth m).setWidth o.ty.bits <<< p))

/-- The register writes. A scalar register write (R73): sN takes the value, every other scalar register and every other
part of the registers stays, s0 discards the write and reads as zero. What an element operation does to a lane, and the
write of the active lanes of a vector register (R34, R53, R54, R74, R290): element e of the result is f of the elements e,
for every element width of a vector integer type; an active lane of the destination, or of the pair from it for a 64-bit
type, takes its value; every other lane of every register and every other part of the registers stays, and the register
file keeps its canonical form. -/
def Obligations.RegisterWrites : Prop :=
  (∀ (r : Regs) (n m : Nat) (x : Word), kwf 0 r.s = true →
   kwf 0 (r.setS n x).s = true ∧
   (r.setS n x).getS m = (if m = 0 then 0 else if m = n then x else r.getS m) ∧
   { r.setS n x with s := r.s } = r ∧ (n = 0 → r.setS n x = r)) ∧
  (∀ n ∈ [8, 16, 32, 64], ∀ (f : Nat → Nat → Nat → Nat) (a b c e : Nat), e < elemCount n →
     elem n e (mapElems n f a b c) = f (elem n e a) (elem n e b) (elem n e c) % 2 ^ n ∧
     mapElems n f a b c < 2 ^ (n * elemCount n)) ∧
  (∀ (r : Regs) (t : ETy) (n : BitVec 6) (f : Nat → Nat), kwf 0 r.v = true →
   let r' := r.mapLanes t (.v n) f
   kwf 0 r'.v = true ∧ { r' with v := r.v } = r ∧
   (∀ l, l < 32 → r.exm.getLsbD l = true →
     if t.bits = 64 then r'.getVV n.toNat l = BitVec.ofNat 64 (f l) else r'.getV n.toNat l = BitVec.ofNat 32 (f l)) ∧
   ∀ m l, l < 32 → (r.exm.getLsbD l = false ∨ (m ≠ n.toNat ∧ ¬(t.bits = 64 ∧ m = n.toNat + 1))) →
     r'.getV m l = r.getV m l)

/-- The row of R294's table for a function on binary32: its results at −∞, −0, +0 and +∞, and at a NaN. -/
def Sys2Proof.Claim.specialRow (fn : Number → Number) (xs : List Nat) : Prop :=
  [0xFF800000, 0x80000000, 0, 0x7F800000].map (fun c => fmtF32.round 0 (fn (fmtF32.decode c))) = xs ∧ fn .nan = .nan

/-- An approximation q of an exact value whose k-th power is p ÷ r: q itself is it, or q is odd and the value lies strictly
between q − 1 and q + 1, so that rounding q to fewer bits rounds the value itself. -/
def Sys2Proof.Claim.sticky (q k p r : Nat) : Prop :=
  q ^ k * r = p ∨ (q % 2 = 1 ∧ (q - 1) ^ k * r < p ∧ p < (q + 1) ^ k * r)

/-- Majors 0x20 to 0x22 (R291 to R295): exact arithmetic rounded once under RND, the minimum and maximum, the comparison,
the class, the rounding to an integer; each special function of the element, rounded to nearest, or under RND for FSQRT. The
values of the special functions: R294's table of special operands; 1 ÷ a, √a and 1 ÷ √a of every finite operand, exact or with
a sticky bit beyond 80 bits; 2^a of an integer and log₂ of a power of two; sin(π a) and cos(π a) of an integer and a
half-integer, odd and even in a; and one value each of 2^a, log₂, sin(π a) and cos(π a) that no case makes exact. -/
def Obligations.FloatArithmetic : Prop :=
  (∀ o : Slot,
   let sum := fun (m : FFmt) (x y : Number) => m.round o.rnd (Number.add o.rnd x y)
   (∀ i ∈ [Instr.fadd o, .hadd2 o], givesFloats i o fun m a b _ => sum m (m.decode a) (m.decode b)) ∧
   givesFloats (.fsub o) o (fun m a b _ => sum m (m.decode a) (m.decode b).neg) ∧
   (∀ i ∈ [Instr.fmul o, .hmul2 o], givesFloats i o fun m a b _ => m.round o.rnd (Number.mul (m.decode a) (m.decode b))) ∧
   (∀ i ∈ [Instr.fma o, .hfma2 o], givesFloats i o fun m a b c =>
     sum m (Number.mul (m.decode a) (m.decode b)) (m.decode c)) ∧
   (∀ i ∈ [Instr.fmin o, .hmin2 o], givesFloats i o fun m a b _ => m.minCode a b) ∧
   (∀ i ∈ [Instr.fmax o, .hmax2 o], givesFloats i o fun m a b _ => m.maxCode a b) ∧
   (∀ i ∈ [Instr.fcmp o, .hcmp2 o], givesFloats i o fun m a b _ =>
     if condNum o.cond (m.decode a) (m.decode b) then 1 else 0) ∧
   givesFloats (.fclass o) o elClass ∧
   givesFloats (.frint o) o (fun m a _ _ => m.toIntegral o.rnd a)) ∧
  (∀ o : Slot,
   let near := fun (fn : Number → Number) (m : FFmt) (a _ _ : Nat) => m.round 0 (fn (m.decode a))
   givesFloats (.frcp o) o (near fnRcp) ∧ givesFloats (.frsq o) o (near fnRsq) ∧
   givesFloats (.fsqrt o) o (fun m a _ _ => m.round o.rnd (fnSqrt (m.decode a))) ∧
   givesFloats (.fexp2 o) o (near fnExp2) ∧ givesFloats (.flog2 o) o (near fnLog2) ∧
   givesFloats (.fsinp o) o (near fnSinPi) ∧ givesFloats (.fcosp o) o (near fnCosPi)) ∧
  (specialRow fnRcp [0x80000000, 0xFF800000, 0x7F800000, 0] ∧
   specialRow fnRsq [0x7FC00000, 0xFF800000, 0x7F800000, 0] ∧
   specialRow fnSqrt [0x7FC00000, 0x80000000, 0, 0x7F800000] ∧
   specialRow fnExp2 [0, 0x3F800000, 0x3F800000, 0x7F800000] ∧
   specialRow fnLog2 [0x7FC00000, 0xFF800000, 0xFF800000, 0x7F800000] ∧
   specialRow fnSinPi [0x7FC00000, 0x80000000, 0, 0x7FC00000] ∧
   specialRow fnCosPi [0x7FC00000, 0x3F800000, 0x3F800000, 0x7FC00000]) ∧
  (∀ (m : Nat) (e : Int), m ≠ 0 →
   (∀ fn ∈ [fnRsq, fnSqrt, fnLog2], fn (.fin true m e) = .nan) ∧
   (∀ neg, ∃ (q t : Nat) (k : Int), fnRcp (.fin neg m e) = .fin neg q k ∧ 2 ^ 80 ≤ q ∧ e + k + t = 0 ∧
     sticky q 1 (2 ^ t) m) ∧
   (∃ (q t : Nat) (k : Int), fnSqrt (.fin false m e) = .fin false q k ∧ 2 ^ 100 ≤ q ∧ e = 2 * k + t ∧
     sticky q 2 (m * 2 ^ t) 1) ∧
   (m < 2 ^ 53 → ∃ (q t : Nat) (k : Int), fnRsq (.fin false m e) = .fin false q k ∧ 2 ^ 100 ≤ q ∧ 2 * k + e + t = 0 ∧
     sticky q 2 (2 ^ t) m)) ∧
  (∀ (m j : Nat) (e : Int) (neg : Bool),
   let whole := fun (neg : Bool) => Number.fin neg (m * 2 ^ j) (-(j : Int))
   let half := fun (neg : Bool) => Number.fin neg ((2 * m + 1) * 2 ^ j) (-((j : Int) + 1))
   (0 < m → m < 150 → fnExp2 (whole neg) = .fin false 1 (if neg then -(m : Int) else m)) ∧
   fnLog2 (.fin false (2 ^ j) e) = Number.ofInt (e + j) ∧
   fnSinPi (whole neg) = .fin neg 0 0 ∧ fnSinPi (half neg) = .fin (neg != (m % 2 == 1)) 1 0 ∧
   fnCosPi (whole neg) = .fin (m % 2 == 1) 1 0 ∧ fnCosPi (half neg) = .fin false 0 0 ∧
   fnSinPi (.fin (!neg) m e) = (fnSinPi (.fin neg m e)).neg ∧ fnCosPi (.fin (!neg) m e) = fnCosPi (.fin neg m e)) ∧
  (let at' := fun (fn : Number → Number) (a : Nat) => fmtF32.round 0 (fn (fmtF32.decode a))
   at' fnExp2 0x3F000000 = 0x3FB504F3 ∧ at' fnLog2 0x40400000 = 0x3FCAE00D ∧
   at' fnSinPi 0x3E800000 = 0x3F3504F3 ∧ at' fnCosPi 0x3E000000 = 0x3F6C835E)

/-- Rounding a value that a float format holds gives its code back, under every rounding field (R56, R59), but for a NaN,
which becomes the canonical one (R57). FMIN, FMAX and comparisons on NaN and zeros (R57, R260, R292): a NaN loses to a
number and two give the canonical NaN; −0 lies below +0 in FMIN and FMAX and equals it in a comparison; of the conditions
only NE and UN hold for a NaN. -/
def Obligations.FloatValues : Prop :=
  (∀ f ∈ [fmtF32, fmtF16, fmtBF16, fmtE4M3, fmtE5M2], ∀ mode code : Nat, code < 2 ^ f.bits →
     f.round mode (f.decode code) = if (f.decode code).isNan then f.nan else code) ∧
  ((∀ f ∈ [fmtF32, fmtF16, fmtBF16], ∀ a b : Nat, (f.decode a).isNan = true →
     f.minCode a b = (if (f.decode b).isNan then f.nan else b) ∧
     f.maxCode a b = (if (f.decode b).isNan then f.nan else b) ∧
     ∀ c, c < 8 → condNum c (f.decode a) (f.decode b) = (c == 1 || c == 6)) ∧
   fmtF32.minCode 0 0x80000000 = 0x80000000 ∧ fmtF32.maxCode 0x80000000 0 = 0 ∧
   condNum 0 (fmtF32.decode 0) (fmtF32.decode 0x80000000) = true ∧
   fmtF32.round 0 (Number.add 0 (fmtF32.decode 0x7F800000) (fmtF32.decode 0xFF800000)) = 0x7FC00000 ∧
   fmtF32.round 0 (Number.mul (fmtF32.decode 0) (fmtF32.decode 0x7F800000)) = 0x7FC00000)

/-- Element e of a source lane has no value: O4's byte 0x88 (R63). -/
def Sys2Proof.Claim.badO4 (o : Slot) (p : Nat × Nat) : Bool := o.srcTy == .o4 && elem 8 (p.1 / 2) p.2 == 0x88

/-- Element e of a source lane has a value that overflows under policy 11 (R60). -/
def Sys2Proof.Claim.overflows (o : Slot) (p : Nat × Nat) : Bool :=
  !badO4 o p && (cvtTo o.ty o.rnd o.ovf
    (if o.srcTy = .o4 then Number.ofInt ((o4Element (elem 8 (p.1 / 2) p.2) (p.1 % 2 = 1)).getD 0)
     else tyValue o.srcTy (elem o.srcTy.bits p.1 p.2))).isNone

/-- CVT, CVTD, VSCALE (R300 to R302): when every element of every active lane has a value, the lanes take those values; where an
element of some active lane is O4's byte 0x88, CVT and CVTD write nothing and raise POISON for the lanes that have one; where
none is and some overflow under policy 11, they write nothing and raise CVT_OVERFLOW for the lanes that do (R60, R63, R213). -/
def Obligations.Conversions : Prop := ∀ (o : Slot) s g (f : Nat → Nat),
  (Ready (.cvt o) s g →
    (∀ l ∈ g.r.active, cvtElem o o.sel (laneOf o g.r o.a o.srcTy l) = .ok (f l)) →
    exec (.cvt o) s = .next (s.retiredAs g (g.r.mapLanes o.ty o.dst fun l => widenElem o.ty (f l)))) ∧
  (Ready (.cvtd o) s g →
    (∀ l ∈ g.r.active, ∃ ys : List Nat, f l = packElems o.ty.bits ys ∧
      ((List.range (32 / o.srcTy.bits)).map fun e => cvtElem o e (laneOf o g.r o.a o.srcTy l)) ++
      ((List.range (32 / o.srcTy.bits)).map fun e => cvtElem o e (laneOf o g.r o.b o.srcTy l)) = ys.map Except.ok) →
    exec (.cvtd o) s = .next (s.retiredAs g (g.r.mapLanes o.ty o.dst f))) ∧
  (Ready (.vscale o) s g → exec (.vscale o) s = .next (s.retiredAs g (g.r.mapLanes o.ty o.dst fun l =>
    mapElems o.ty.bits
      (fun a b _ => (tyFmt o.ty).round o.rnd
        (Number.scale (BitVec.ofNat o.ty.bits b).toInt ((tyFmt o.ty).decode ((tyFmt o.ty).negAbs o.negA o.absA a))))
      (laneOf o g.r o.a o.ty l) (laneOf o g.r o.b o.ty l) 0))) ∧
  (Ready (.cvt o) s g → g.r.exm ≠ 0 → o.srcTy ≠ .o4 →
    (∀ l ∈ g.r.active, cvtTo o.ty o.rnd o.ovf (tyValue o.srcTy (elem o.srcTy.bits o.sel (laneOf o g.r o.a o.srcTy l)))
      = none) →
    exec (.cvt o) s = .next (s.takeException false
      { cause := .cvtOverflow, lanes := g.r.exm, addr := 0, wr := false, fetch := false, mal := false })) ∧
  (let traps := fun (i : Instr) (elems : Nat → List (Nat × Nat)) => Ready i s g →
     let bad := g.r.active.filter fun l => (elems l).any (badO4 o)
     let tooBig := g.r.active.filter fun l => (elems l).any (overflows o)
     let raises := fun (c : Cause) (ls : List Nat) => exec i s = .next (s.takeException false
       { cause := c, lanes := maskOf ls, addr := 0, wr := false, fetch := false, mal := false })
     (bad ≠ [] → raises .poison bad) ∧ (bad = [] → tooBig ≠ [] → raises .cvtOverflow tooBig)
   traps (.cvt o) (fun l => [(o.sel, laneOf o g.r o.a o.srcTy l)]) ∧
   traps (.cvtd o) (fun l => [o.a, o.b].flatMap fun x =>
     (List.range (32 / o.srcTy.bits)).map fun e => (e, laneOf o g.r x o.srcTy l)))

/-- Lane l of register va of group n of the issuing gang, as GSHF reads it (R306): the issuing group's own as it stands; zero where
the gang has no group n, or n's VBUDGET does not reach va. -/
def Sys2Proof.Claim.groupLane (o : Slot) (s : State) (n l : Nat) : Nat :=
  let lane := fun (r : Regs) => if o.wid = 3 then (r.getVV o.a.num l).toNat else (r.getV o.a.num l).toNat
  if groupKey (gangOf s.cur) n = s.cur then lane s.regs
  else match s.group? (groupKey (gangOf s.cur) n) with
    | some g => if g.standing = .exited ∨ g.vbudget ≤ o.a.num then 0 else lane g.r
    | none => 0

/-- GSHF (R306): with some lane active, an operation counted in LD whose destination lanes are written later: each active lane
takes, in a 32-bit register or a pair, the lane of its tile that its index names, of the register of the group that sb names;
a lane whose index lies outside the tile takes zero under FILL, and lane l of that register without. -/
def Obligations.GroupShuffle : Prop := ∀ (o : Slot) s g, Ready (.gshf o) s g → g.r.exm ≠ 0 → g.ld < 63 →
  ∃ op, exec (.gshf o) s = .next
      ({ s with nextOp := s.nextOp + 1 }.retiredAs { g with ld := g.ld + 1, ops := g.ops ++ [op] } g.r) ∧
    op.kind = .taken ∧ op.countsLd = true ∧ op.seq = s.nextOp ∧
    op.result = g.r.active.flatMap fun l =>
      let n := (g.r.getS o.b.num).toNat % 16
      let w := 32 >>> g.r.lpart.toNat
      let x := laneOf o g.r o.c .n32 l
      let y := if x < w then groupLane o s n (l - l % w + x) else if o.bit34 then 0 else groupLane o s n l
      RegWrite.v o.dst.num l (BitVec.ofNat 32 y) ::
        if o.wid = 3 then [.v (o.dst.num + 1) l (BitVec.ofNat 32 (y / 2 ^ 32))] else []

/-- SHFL, SHFLX, SHFLUP, SHFLDN, VBCAST (R304, R305) in tiles of LPART's width, VLANE and VIDX (R305). VOTEANY, VOTEALL,
BALLOT, MATCH (R307): votes within the tile, the mask of the active lanes whose value is not zero, and the lanes of the
tile that hold the same value, as a 32-bit mask in one register for MATCH.N64 too (the model's reading, log 27). -/
def Obligations.LaneExchange : Prop :=
  (∀ o : Slot,
   let gives := fun (i : Instr) (src : Nat → Nat → Nat → Option Nat) =>
     ∀ s g, Ready i s g → exec i s = .next (s.retiredAs g (exchanged o src g.r))
   let inTile := fun (w l x : Nat) => if w ≤ x then none else some (l / w * w + x)
   gives (.shfl o) inTile ∧
   gives (.vbcast o) inTile ∧
   gives (.shflx o) (fun w l x => if w ≤ x then none else some (l ^^^ x)) ∧
   gives (.shflup o) (fun w l x => if l % w < x then none else some (l - x)) ∧
   gives (.shfldn o) (fun w l x => if w ≤ l % w + x then none else some (l + x)) ∧
   givesLane (.vidx o) o .n32 (fun r l => laneOf o r o.b .n32 l + l % (32 >>> r.lpart.toNat)) ∧
   ∀ s g, Ready (.vlane o) s g →
     let l := (scalarOf o g.r o.b).toNat % 32
     exec (.vlane o) s = .next (s.retiredAs g (g.r.setDst o.dst
       (if o.wid = 3 then g.r.getVV o.a.num l else (g.r.getV o.a.num l).setWidth 64)))) ∧
  (∀ o : Slot,
   let p := fun (r : Regs) (l : Nat) => r.getV o.a.num l ≠ 0
   givesLane (.voteany o) o .n32 (fun r l => if (mates r l).any fun k => p r k then 1 else 0) ∧
   givesLane (.voteall o) o .n32 (fun r l => if (mates r l).all fun k => p r k then 1 else 0) ∧
   givesLane (.matchLanes o) o .n32 (fun r l =>
     (maskOf ((mates r l).filter fun k => laneOf o r o.a o.ty k = laneOf o r o.a o.ty l)).toNat) ∧
   ∀ s g, Ready (.ballot o) s g → ∃ m : BitVec 32,
     exec (.ballot o) s = .next (s.retiredAs g (g.r.setDst o.dst (m.setWidth 64))) ∧
     ∀ l, l < 32 → m.getLsbD l = (g.r.exm.getLsbD l && decide (p g.r l)))

/-- REDADD, REDMIN, REDMAX, SCANADD, REDFADD and SCANFADD (R71, R72, R292, R308): the sum modulo 2ⁿ, the least or
greatest of the active lanes of the tile, and the sum of those up to the lane; on F32 the least or greatest of the lanes that
hold a number, −0 below +0, and the canonical NaN where none does; the float tree over the tile, and the float running sum in
ascending lane order, each sum rounded to binary32 under RND. -/
def Obligations.Reductions : Prop :=
  (∀ o : Slot,
   let val := fun (r : Regs) (k : Nat) => laneOf o r o.a o.ty k
   let best := fun (better : Int → Int → Bool) (r : Regs) (l x : Nat) =>
     x ∈ (mates r l).map (val r) ∧ ∀ k ∈ mates r l, better (extTy o.ty (val r k)) (extTy o.ty x) = false
   let bestF := fun (choose : Nat → Nat → Nat) (r : Regs) (l x : Nat) =>
     let xs := ((mates r l).map (val r)).filter fun c => !(fmtF32.decode c).isNan
     if xs = [] then x = 0x7FC00000 else x ∈ xs ∧ ∀ c ∈ xs, choose c x = x
   (∀ s g, Ready (.redadd o) s g → ∃ f, exec (.redadd o) s = .next (s.retiredAs g (g.r.mapLanes o.ty o.dst f)) ∧
     ∀ l ∈ g.r.active, g.r.lpart.toNat ≤ 4 →
       f l = (((mates g.r l).map fun k => val g.r k).sum) % 2 ^ o.ty.bits) ∧
   (∀ s g, Ready (.redmin o) s g → ∃ f, exec (.redmin o) s = .next (s.retiredAs g (g.r.mapLanes o.ty o.dst f)) ∧
     ∀ l ∈ g.r.active, g.r.lpart.toNat ≤ 4 →
       if o.ty = .f32 then bestF fmtF32.minCode g.r l (f l) else best (fun a b => a < b) g.r l (f l)) ∧
   (∀ s g, Ready (.redmax o) s g → ∃ f, exec (.redmax o) s = .next (s.retiredAs g (g.r.mapLanes o.ty o.dst f)) ∧
     ∀ l ∈ g.r.active, g.r.lpart.toNat ≤ 4 →
       if o.ty = .f32 then bestF fmtF32.maxCode g.r l (f l) else best (fun a b => b < a) g.r l (f l)) ∧
   (∀ s g, Ready (.scanadd o) s g → ∃ f, exec (.scanadd o) s = .next (s.retiredAs g (g.r.mapLanes o.ty o.dst f)) ∧
     ∀ l ∈ g.r.active, f l % 2 ^ o.ty.bits =
       (((mates g.r l).filter (· ≤ l)).map fun k => val g.r k).sum % 2 ^ o.ty.bits)) ∧
  (∀ o : Slot,
   let add := fun (a b : Nat) => fmtF32.round o.rnd (Number.add o.rnd (fmtF32.decode a) (fmtF32.decode b))
   givesLane (.redfadd o) o o.ty (fun r l => tileReduce add canonNat o r l) ∧
   givesLane (.scanfadd o) o o.ty (fun r l => scanTo add canonNat o r l))

/-- Byte i of what an access of a group reads (R120, R121, R123): the group's own pending byte foremost; the byte of a fill that the
stall's L1 still holds unowned, where it holds every word of the access so; else the coherent byte. -/
def Sys2Proof.Claim.loadedByte (s : State) (stall : Nat) (g : Group) (a : Acc) (i : Nat) : Byte :=
  let filled := (List.range a.bytes).all fun j => s.heldWord stall (a.loc + j) = .unowned
  match g.ownByte? (a.loc + i) with
  | some b => b
  | none =>
    if a.uncached = false ∧ filled = true then
      match (s.stall stall).line? false ((a.loc + i) / 64) with
      | some l => l.byte ((a.loc + i) % 64)
      | none => 0
    else s.coherent (a.loc + i)

/-- What an access reads, under its lane: its bytes, lowest first (R2). -/
def Sys2Proof.Claim.loaded (s : State) (stall : Nat) (g : Group) (a : Acc) : Nat × Nat :=
  (a.lane, leValue ((List.range a.bytes).map (loadedByte s stall g a)))

/-- LD.G, LDLINE, and LDS of global memory (R75, R119, R187, R312 to R314): with every access checked and no word of it
pending for another group of the stall, the load completes its issue and counts in LD; a plain one is still to be performed
(when is the model's choice, log 7), an acquire holds the register writes of the values that its lanes have read: of a lone
access, or of uncached pages, the group's own pending bytes, then those that the L1 holds unowned in whole, else the coherent
ones; the registers wait for its completion. A plain load changes no byte of any memory where no earlier load of the group
waits. -/
def Obligations.GlobalLoads : Prop :=
  (∀ (o : Slot) s g (acc : Nat → Acc),
   let completes := fun (i : Instr) (ty : ETy) (dst : List RegName) (accs : List Acc) =>
     accs ≠ [] → (∀ a ∈ accs, s.pendingByOther a.loc a.bytes = false) → g.ld < 63 →
     ∃ t g' op, exec i s = .next t ∧ Retired s t g g' ∧ sameRegs g g' ∧ counted true g g' op ∧
       op.dst = dst ∧
       (o.ord = 0 → op.kind = .load ∧ op.performed = false ∧ op.accs = accs ∧ op.got = [] ∧ op.ty = ty) ∧
       (o.ord = 2 → op.kind = .taken ∧ op.performed = true ∧
         (∃ vals : List (Nat × Nat), op.result = loadWrites ty dst vals ∧ vals.map Prod.fst = accs.map Acc.lane) ∧
         ((∀ op ∈ g.ops, op.performed = true) → s.Canonical → (accs.length = 1 ∨ ∀ a ∈ accs, a.uncached = true) →
           op.result = loadWrites ty dst (accs.map (loaded s s.here g))))
   (Ready (.ldG o) s g → (∀ l ∈ g.r.active, s.globalAcc l (eaGlobal o g.r l) o.ty.bytes .read = .ok (acc l)) →
     completes (.ldG o) o.ty (Instr.writesRegs (.ldG o)) (g.r.active.map acc)) ∧
   (Ready (.ldline o) s g → (∀ l ∈ g.r.active, s.lineAcc (eaScalar o g.r) l = .ok (acc l)) →
     completes (.ldline o) .n32 (Instr.writesRegs (.ldline o)) (g.r.active.map acc)) ∧
   (Ready (.lds o) s g → o.space = 0 → s.globalAcc 0 (eaScalar o g.r) o.ty.bytes .read = .ok (acc 0) →
     completes (.lds o) o.ty [.s o.dst.num] [acc 0])) ∧
  (∀ (o : Slot) s g t,
   (∀ op ∈ g.ops, op.performed = true) → o.ord = 0 → s.Canonical →
   ∀ i ∈ [Instr.ldG o, .ldline o, .lds o], Ready i s g → (i = .lds o → o.space = 0) → exec i s = .next t → t.last = .retired →
   SameReads s t)

/-- LOAD_COMPLETE (R75, R113, R120, R187, R313): an operation that has been performed, be it a plain load, an acquire, a load of
scratchpad or loft, a returning atomic, a lane read, a voxel or a record load, makes its register writes, leaves the list and
lowers LD, and nothing else changes. A plain load of uncached pages, or of one access, is performed by its completion (log 7):
its destination takes the bytes read, sign- or zero-extended; some accesses of a load alone leave it waiting with their values. A
load of uncached pages, and one whose line has room in the L1, changes no byte of any memory. -/
def Obligations.LoadCompletion : Prop := ∀ (s : State) grp g idx op, s.group? grp = some g → g.ops[idx]? = some op →
  op.countsLd = true →
  let ended := fun (ws : List RegWrite) =>
    { g with r := g.r.writes ws, ld := g.ld - op.counted.toNat, ops := g.ops.eraseIdx idx }
  (∀ is f, op.performed = true → (op.kind = .taken ∨ op.kind = .load ∨ op.kind = .atomic f) →
    occurs (.loadComplete grp ⟨idx, is⟩) s (s.setGroup grp (ended op.result))) ∧
  (op.kind = .load → op.performed = false → op.got = [] → op.accs ≠ [] → s.Canonical →
    let t := s.runsOn (gangOf grp)
    let values := op.accs.map (loaded s t g)
    ((∀ a ∈ op.accs, a.uncached = true) →
      (∃ u, occurs (.loadComplete grp ⟨idx, List.range op.accs.length⟩) s u ∧ SameReads s u ∧
        u.group? grp = some (ended (loadWrites op.ty op.dst values))) ∧
      ∀ i v, 1 < op.accs.length → values[i]? = some v →
        ∃ u, occurs (.loadComplete grp ⟨idx, [i]⟩) s u ∧ SameReads s u ∧
          u.group? grp = some { g with ops := g.ops.set idx { op with got := [(i, v.2)] } }) ∧
    (∀ a, op.accs = [a] → a.uncached = false → ∃ u, occurs (.loadComplete grp ⟨idx, [0]⟩) s u ∧
      u.group? grp = some (ended (loadWrites op.ty op.dst values)) ∧
      u.loft = s.loft ∧ (∀ n, (u.stall n).scratch = (s.stall n).scratch) ∧
      (a.loc / 32 = (a.loc + a.bytes - 1) / 32 →
        ((s.stall t).line? false (a.loc / 64)).isSome = true ∨ (s.stall t).victim? (a.loc / 64) = none → SameReads s u)))

/-- LD.L, LD.F, and LDS of scratchpad and loft (R104, R119, R129, R313, R314): the bytes are read at issue (the model's choice of
the moment, log 7), and the operation holds the register writes; a float element in a scalar register is zero-extended (the
model's choice, log 83). -/
def Obligations.LocalLoads : Prop := ∀ (o : Slot) s g (off : Nat → Nat) (acc : Nat → Acc), g.ld < 63 →
  let after := fun (dst : List RegName) (vals : List (Nat × Nat)) =>
    let op := { Op.taken dst (loadWrites o.ty dst vals) with counted := true, countsLd := true, seq := s.nextOp }
    { s with nextOp := s.nextOp + 1 }.retiredAs { g with ld := g.ld + 1, ops := g.ops ++ [op] } g.r
  let acquired := fun (t : State) => if o.ord = 2 then t.acquireAt s.here else t
  let fromLoft := fun (i : Instr) (ws : List RegWrite) =>
    ∃ t g' op, exec i s = .next t ∧ Retired s t g g' ∧ sameRegs g g' ∧ counted true g g' op ∧ op.kind = .taken ∧
      op.performed = true ∧ op.result = ws ∧
      (s.Canonical → t.loft = s.loft ∧ ∀ n, (t.stall n).scratch = (s.stall n).scratch)
  (Ready (.ldL o) s g → g.r.exm ≠ 0 →
    (∀ l ∈ g.r.active, s.ownAcc l (eaOffset o g.r l) o.ty.bytes .read = .ok (acc l)) →
    exec (.ldL o) s = .next (acquired (after (Instr.writesRegs (.ldL o)) (g.r.active.map fun l =>
      (l, s.scr s.here (acc l).loc (acc l).bytes))))) ∧
  (Ready (.lds o) s g → o.space = 1 → s.ownAcc 0 (eaScalar o g.r) o.ty.bytes .read = .ok (acc 0) →
    exec (.lds o) s = .next (acquired (after [.s o.dst.num] [(0, s.scr s.here (acc 0).loc (acc 0).bytes)]))) ∧
  (Ready (.ldF o) s g → g.r.exm ≠ 0 →
    (∀ l ∈ g.r.active, s.checkLoft (gangOf s.cur) (eaOffset o g.r l) o.ty.bytes = .ok (off l)) →
    fromLoft (.ldF o) (loadWrites o.ty (Instr.writesRegs (.ldF o))
      (g.r.active.map fun l => (l, leValue (s.loft.readN (off l) o.ty.bytes))))) ∧
  (Ready (.lds o) s g → o.space = 2 → s.checkLoft (gangOf s.cur) (eaScalar o g.r) o.ty.bytes = .ok (off 0) →
    fromLoft (.lds o) [.s o.dst.num (toScalar o.ty (leValue (s.loft.readN (off 0) o.ty.bytes)))]) ∧
  (∀ x : Nat, toScalar o.ty x = extended o.ty (BitVec.ofNat o.ty.bits x))

/-- The bytes a lane's store of an n-byte element writes: from its location on, the element's bytes, lowest first. -/
def Sys2Proof.Claim.holdsStore (cells : List Host.Cell) (loc n : Nat) (x : Nat) : Prop :=
  ∀ i, i < n → (loc + i, BitVec.ofNat 8 (x >>> (8 * i))) ∈ cells

/-- ST.G, and STS of global memory, in their plain form (R119, R123, R187, R312, R315): with every access checked the
store counts in ST and its operation holds the bytes that wait for their word's registration, or for their home on an
uncached page; where the stall owns none of the words yet, no byte of any memory has changed, and every lane's element
stands among the waiting bytes unless a higher lane stores there. -/
def Obligations.GlobalStores : Prop := ∀ (o : Slot) s g (acc : Nat → Acc), o.ord = 0 → g.st < 63 →
  (Ready (.stG o) s g → g.r.exm ≠ 0 →
    (∀ l ∈ g.r.active, s.globalAcc l (eaGlobal o g.r l) o.ty.bytes .write = .ok (acc l)) →
    ∃ t g' op later direct, exec (.stG o) s = .next t ∧ Retired s t g g' ∧ sameRegs g g' ∧ counted false g g' op ∧
      op.kind = .store later direct ∧
      ((∀ op ∈ g.ops, op.performed = true) → s.Canonical →
        (∀ l ∈ g.r.active, ∀ i, i < o.ty.bytes → s.ownerOf ((acc l).loc + i) ≠ some s.here) →
        SameReads s t ∧
        ∀ l ∈ g.r.active,
          (∀ k ∈ g.r.active, k ≤ l ∨ (acc k).loc + (acc k).bytes ≤ (acc l).loc ∨ (acc l).loc + (acc l).bytes ≤ (acc k).loc) →
          holdsStore (if (acc l).uncached then direct else later) (acc l).loc o.ty.bytes (laneOf o g.r o.b o.ty l))) ∧
  (Ready (.sts o) s g → o.space = 0 → s.globalAcc 0 (eaScalar o g.r) o.ty.bytes .write = .ok (acc 0) →
    ∃ t g' op later direct, exec (.sts o) s = .next t ∧ Retired s t g g' ∧ sameRegs g g' ∧ counted false g g' op ∧
      op.kind = .store later direct ∧
      ((∀ op ∈ g.ops, op.performed = true) → s.Canonical →
        (∀ i, i < o.ty.bytes → s.ownerOf ((acc 0).loc + i) ≠ some s.here) →
        SameReads s t ∧
        holdsStore (if (acc 0).uncached then direct else later) (acc 0).loc o.ty.bytes (scalarTyOf o g.r o.b).toNat))

/-- ST.L, and STS of the own scratchpad, in their plain form (R91, R187, R312, R315): the banks hold the element's bytes at
once, lowest byte first, and every other byte of the scratchpad, of global memory and of the loft reads as before. That the
banks hold them at issue is the model's choice (log 7; R91 and R129 have them at the grant of the banks). -/
def Obligations.LocalStores : Prop := ∀ (o : Slot) s g (acc : Nat → Acc), o.ord = 0 → g.st < 63 →
  s.Canonical →
  (Ready (.stL o) s g → g.r.exm ≠ 0 →
    (∀ l ∈ g.r.active, s.ownAcc l (eaOffset o g.r l) o.ty.bytes .write = .ok (acc l)) →
    ∃ t g' op, exec (.stL o) s = .next t ∧ Retired s t g g' ∧ sameRegs g g' ∧ counted false g g' op ∧
      t.gmem = s.gmem ∧ t.loft = s.loft ∧
      (∀ a, (∀ l ∈ g.r.active, a < (acc l).loc ∨ (acc l).loc + o.ty.bytes ≤ a) →
        (t.stall s.here).scratch.read a = (s.stall s.here).scratch.read a) ∧
      ∀ l ∈ g.r.active, ∀ i, i < o.ty.bytes →
        (∀ k ∈ g.r.active, k ≤ l ∨ (acc k).loc + o.ty.bytes ≤ (acc l).loc ∨ (acc l).loc + o.ty.bytes ≤ (acc k).loc) →
        (t.stall s.here).scratch.read ((acc l).loc + i) = BitVec.ofNat 8 (laneOf o g.r o.b o.ty l >>> (8 * i))) ∧
  (Ready (.sts o) s g → o.space = 1 → s.ownAcc 0 (eaScalar o g.r) o.ty.bytes .write = .ok (acc 0) →
    ∃ t g' op, exec (.sts o) s = .next t ∧ Retired s t g g' ∧ sameRegs g g' ∧ counted false g g' op ∧
      t.gmem = s.gmem ∧ t.loft = s.loft ∧
      (∀ a, (a < (acc 0).loc ∨ (acc 0).loc + o.ty.bytes ≤ a) →
        (t.stall s.here).scratch.read a = (s.stall s.here).scratch.read a) ∧
      ∀ i, i < o.ty.bytes → (t.stall s.here).scratch.read ((acc 0).loc + i) =
        BitVec.ofNat 8 ((scalarTyOf o g.r o.b).toNat >>> (8 * i)))

/-- ST.R in both forms, plain (R45, R93, R187, R311, R315): with every offset aligned, that of the count's object among them
(checked at issue, log 39), the stores stand among the group's deliveries, unchecked and each bound to nothing yet, under the
number of the instruction, which counts once in ST; without CNT each lane makes one delivery (log 58), with CNT each target
stall gets one, its bytes before the count of its bytes. No byte of any memory changes at issue. -/
def Obligations.RemoteStores : Prop := ∀ (o : Slot) s g, o.ord = 0 → g.st < 63 → g.r.exm ≠ 0 →
  let staged := fun (parts : List Parcel) =>
    { parts := parts, checked := false, bound := [], failed := none, store := some s.nextOp : Delivery }
  (Ready (.stR o) s g → (∀ l ∈ g.r.active, (eaOffset o g.r l).toNat % o.ty.bytes = 0) →
    ∃ t g' op, exec (.stR o) s = .next t ∧ Retired s t g g' ∧ sameRegs g g' ∧ counted false g g' op ∧
      SameMemory s t ∧ op.kind = .remoteStore ∧ op.seq = s.nextOp ∧
      g'.deliveries = g.deliveries ++ g.r.active.map fun l =>
        staged [.bytes (remoteStall o g.r l).toNat (eaOffset o g.r l).toNat (leBytes o.ty.bytes (laneOf o g.r o.b o.ty l))]) ∧
  (Ready (.stRCnt o) s g → o.imm.toNat % 32 = 0 →
    (∀ l ∈ g.r.active, (baseOffset g.r o.a l).toNat % o.ty.bytes = 0) →
    ∃ t g' op, exec (.stRCnt o) s = .next t ∧ Retired s t g g' ∧ sameRegs g g' ∧ counted false g g' op ∧
      SameMemory s t ∧ op.kind = .remoteStore ∧ op.seq = s.nextOp ∧
      g'.deliveries = g.deliveries ++ (g.r.active.map (remoteStall o g.r)).eraseDups.map fun t =>
        let ls := g.r.active.filter fun l => remoteStall o g.r l = t
        staged ((ls.map fun l => Parcel.bytes t.toNat (baseOffset g.r o.a l).toNat
          (leBytes o.ty.bytes (laneOf o g.r o.b o.ty l))) ++ [.count t.toNat o.imm.toNat (o.ty.bytes * ls.length)]))

/-- The gang whose receive range takes a part's bytes (R46, R93), the 32 bytes of a count's object among them; the rest of what a
group delivers goes to its own gang. -/
def Sys2Proof.Claim.receiver (s : State) (grp : Nat) (p : Parcel) : Option Nat :=
  let at' := fun (st off n : Nat) => s.remoteWriteGang (lidOf (gangOf grp)) (BitVec.ofNat 64 st) (BitVec.ofNat 64 off) n
  match p with
  | .bytes st off bs => at' st off bs.length
  | .count st off _ => at' st off 32
  | _ => some (gangOf grp)

/-- The address of a part that fails its check (R46). -/
def Sys2Proof.Claim.failAddr (p : Parcel) : Word :=
  match p with
  | .bytes st off _ => remoteForm (BitVec.ofNat 64 st) (BitVec.ofNat 64 off)
  | .count st off _ => remoteForm (BitVec.ofNat 64 st) (BitVec.ofNat 64 off)
  | _ => 0

/-- STAGING_CHECK (R45, R46, R93, R187): a group's first delivery that has not been checked is: each of its parts is bound to
the gang whose receive range takes it, and a part that none takes makes the delivery fail at the first such part's address
(a delivery without CNT is one lane's, log 58; a gang imaged out takes none, log 81).
A remote store none of whose deliveries is left unchecked is acknowledged: it leaves the list and ST falls. Nothing else
changes. A group all of whose deliveries have been checked has nothing to check. -/
def Obligations.StagingCheck : Prop := ∀ (s : State) grp g, s.group? grp = some g →
  (∀ pre d post, g.deliveries = pre ++ d :: post → (∀ x ∈ pre, x.checked = true) → d.checked = false →
    ∃ d' g', occurs (.stagingCheck grp) s (s.setGroup grp g') ∧
      d' = { d with checked := true, failed := d'.failed, bound := d'.bound } ∧
      ((∀ p ∈ d.parts, receiver s grp p ≠ none) →
        d'.failed = none ∧ d'.bound.map some = d.parts.map (receiver s grp)) ∧
      (∀ p ∈ d.parts, receiver s grp p = none → ∃ q, d.parts.find? (fun q => (receiver s grp q).isNone) = some q ∧
        d'.failed = some (failAddr q)) ∧
      let acked := fun (op : Op) =>
        op.kind == .remoteStore && (pre ++ d' :: post).all fun x => x.checked || x.store != some op.seq
      g' = { g with deliveries := pre ++ d' :: post, ops := g.ops.filter fun op => !acked op,
                    st := g.st - (g.ops.filter acked).length }) ∧
  ((∀ x ∈ g.deliveries, x.checked = true) → exec (.stagingCheck grp) s = .next { s with last := .idle })

/-- The new memory value of an atomic (R316) on n-bit values: m the old value, b the operand, c the compare value. -/
def Sys2Proof.Claim.atomValue {n : Nat} (op : AOp) (signed : Bool) (m b c : BitVec n) : BitVec n :=
  match op with
  | .add => m + b
  | .min => if (if signed then b.slt m else b.ult m) then b else m
  | .max => if (if signed then m.slt b else m.ult b) then b else m
  | .and => m &&& b
  | .or => m ||| b
  | .xor => m ^^^ b
  | .swap => b
  | .cas => if m = c then b else m
  | .fadd => m

/-- The atomic operations on integers (R316), and FADD on binary32 rounded to nearest. ATOM.G and ATOM.L in their relaxed
form, by one active lane (R124, R182, R187, R316, R317): the location takes the new value, but for a CAS whose comparison
fails, the old value waits for the destination register unless NORET gives it up, and the effect log has an entry with
it. -/
def Obligations.Atomics : Prop :=
  (∀ (t : ETy) (op : AOp) (m b c : BitVec t.bits),
   (op ≠ .fadd → op.apply t m.toNat b.toNat c.toNat = (atomValue op t.signed m b c).toNat) ∧
   (op = .fadd → t = .f32 → op.apply t m.toNat b.toNat c.toNat =
     fmtF32.round 0 (Number.add 0 (fmtF32.decode m.toNat) (fmtF32.decode b.toNat)))) ∧
  (∀ (o : Slot) s g l (a : Acc), o.ord = 1 → g.ld < 63 → g.st < 63 → g.r.active = [l] →
   let step := fun (i : Instr) (m : Nat) (u : State) =>
     let ws := loadWrites o.ty (if o.bit34 then [] else Instr.writesRegs i) [(l, m)]
     (∀ e : Effect, e.kind = 1 → e.payload ≤ 32 → g.logFull e = false) →
     ∃ t g' op, exec i s = .next t ∧ Retired s t g g' ∧ sameRegs g g' ∧ counted (!o.bit34) g g' op ∧ op.result = ws ∧
       t.gmem = u.gmem ∧ t.owners = u.owners ∧ t.poison = u.poison ∧ t.stalls = u.stalls ∧ t.loft = s.loft ∧
       ∃ e, g'.effects = g.effects ++ [e] ∧ e.kind = 1 ∧ e.ric = g.ric + 1 ∧ e.writes = ws
   let x := withOperands o g.r a
   let put := fun (m : Nat) => (aopOf o.aop).apply o.ty m x.value.toNat x.compare.toNat
   let writes := fun (m : Nat) => ¬(o.aop = 7 ∧ m ≠ x.compare.toNat)
   (Ready (.atomG o) s g → s.atomicAcc l (eaGlobal o g.r l) o.ty.bytes = .ok a → (∀ op ∈ g.ops, op.performed = true) →
     g.pendingAt a.loc a.bytes = false →
     let s0 := ((s.touchTlb s.here a.va).touchHomes a.loc a.bytes).freshen s.here a.loc a.bytes
     let m := s0.coherentN a.loc a.bytes
     step (.atomG o) m (if writes m then s0.writeFrom s.here a.loc (leBytes a.bytes (put m)) else s0)) ∧
   (Ready (.atomL o) s g → s.ownAcc l (eaOffset o g.r l) o.ty.bytes .update = .ok a →
     let m := s.scr s.here a.loc a.bytes
     step (.atomL o) m (if writes m then s.scrWriteN s.here a.loc a.bytes (put m) else s)))

/-- The group's errand has been answered: the operation that held it at its instruction has its reply (R93). -/
def Sys2Proof.Claim.answered (g : Group) (op : Op) : Prop := g.errand? = some op ∧ op.kind = .replied

/-- LD.R and ATOM.R, CLAIM, VOLINV, TLBINV, TLBINV.ALL and TCALL complete when their reply has come (R93, R182, R319, R322,
R368, R395): the registers take what the reply holds, the operation is gone, and a remote access stands in the log, under the
address of its lowest active lane (the model's reading, log 38). -/
def Obligations.RepliedInstructions : Prop := ∀ (o : Slot) s g op, answered g op →
  let g0 := g.dropErrand
  let logs := fun (kind : Nat) =>
    { g0 with effects := g.effects ++ [Effect.of kind g (remoteKey o g.r) op.result] }
  (Ready (.ldR o) s g → o.ord = 0 → g.r.exm ≠ 0 →
    exec (.ldR o) s = .next (s.retiredAs (logs 2) (g.r.writes op.result))) ∧
  (Ready (.atomR o) s g → o.ord = 1 → g.r.exm ≠ 0 →
    exec (.atomR o) s = .next (s.retiredAs (logs 1) (g.r.writes op.result))) ∧
  (Ready (.claim o) s g → exec (.claim o) s = .next (s.retiredAs g0 g.r)) ∧
  (∀ i ∈ [Instr.volinv o, .tlbinv o, .tlbinvAll o], Ready i s g →
    exec i s = .next (s.retiredAs g0 (g.r.writes op.result))) ∧
  (Ready (.tcall o) s g → g.r.exm ≠ 0 → exec (.tcall o) s = .next (s.retiredAs g0 (g.r.writes op.result)))

/-- The sending of those requests (R93, R319, R322, R368, R395): the group waits at the instruction, its registers as they
were, with the request as its latest operation; a remote access leaves for the stalls that its lanes name, a
shootdown once the group's stores are done. -/
def Obligations.SentRequests : Prop := ∀ (o : Slot) s g, g.errand? = none →
  let sends := fun (i : Instr) (kind : OpKind) =>
    ∃ t g' op, exec i s = .next t ∧ (∃ w, t.last = .held w) ∧ t.group? s.cur = some g' ∧ g'.r = g.r ∧ g'.ric = g.ric ∧
      g'.ops = g.ops ++ [op] ∧ op.kind = kind ∧ SameMemory s t
  (Ready (.tlbinv o) s g → g.st = 0 → g.storesGranted = true →
    sends (.tlbinv o) (.tlbinv false (g.r.getS o.a.num) ((scalarOf o g.r o.b).toNat % 65536 + 1))) ∧
  (Ready (.tlbinvAll o) s g → g.st = 0 → g.storesGranted = true → sends (.tlbinvAll o) (.tlbinv true 0 0)) ∧
  (Ready (.volinv o) s g → g.st = 0 → g.storesGranted = true →
    sends (.volinv o) (.volinv (g.r.getS o.a.num) ((scalarOf o g.r o.b).toNat % 2 ^ 17)
      ((scalarOf o g.r o.c).toNat % 2 ^ 17))) ∧
  (Ready (.ldR o) s g → g.r.exm ≠ 0 → g.ld < 63 → (∀ e : Effect, e.payload ≤ 16 → g.logFull e = false) →
    sends (.ldR o) (.remote (g.r.active.map fun l => (remoteStall o g.r l).toNat) none)) ∧
  (Ready (.atomR o) s g → o.ord ≤ 2 → g.r.exm ≠ 0 → g.ld < 63 → g.st < 63 → (∀ e : Effect, e.payload ≤ 16 → g.logFull e = false) →
    sends (.atomR o) (.remote (g.r.active.map fun l => (remoteStall o g.r l).toNat) (some (aopOf o.aop)))) ∧
  (Ready (.claim o) s g →
    (∀ k, k < (scalarOf o g.r o.b).toNat % 256 + 1 → s.checkClaim (pageAt (eaScalar o g.r) k) = .ok ()) →
    (eaScalar o g.r).toNat % 65536 = 0 →
    sends (.claim o) (.claim (eaScalar o g.r) ((scalarOf o g.r o.b).toNat % 256 + 1)))

/-- ACQ, FENCE (R114, R119, R127, R318): the group's earlier loads are performed first (the model's choice of the moment, log 32),
a load of uncached pages or of one access then holding the values read, and then every word of the stall's L1 that it does not
own is dropped; with no load to perform nothing else of any memory changes; an acquire also hears of the clock readings made
before it (R136). Tags and counters (R81, R326): TWAITALL and WAITC
retire when their condition holds and are acquires, TWAITALL clearing its tags; TWAITANY gives the lowest set bit of its
mask and clears it, 64 for an empty mask; TFFS changes no tag; a condition that fails leaves the group waiting. -/
def Obligations.Waits : Prop :=
  (∀ (o : Slot) s g, (∀ op ∈ g.ops, op.performed = true) →
   let dropped := s.modStall s.here fun st => { st with l1 := st.l1.filterMap Line.invalidated }
   (Ready (.acq o) s g → exec (.acq o) s = .next ((s.acquireAt s.here).retiredAs g g.r)) ∧
   { s.acquireAt s.here with heard := s.heard } = dropped ∧
   (Ready (.fence o) s g → g.storesGranted = true → exec (.fence o) s = .next (dropped.retiredAs g g.r)) ∧
   (∀ l : Line, l.loft = false → l.owned ≠ 0 → ∃ l', l.invalidated = some l' ∧ l'.valid = 0 ∧
     l'.owned = l.owned ∧ l'.dirty = l.dirty ∧ l'.data = l.data) ∧
   (∀ l : Line, l.loft = false → l.owned = 0 → l.invalidated = none) ∧
   (∀ l : Line, l.loft = true → l.invalidated = some l)) ∧
  (∀ (o : Slot) s g, s.Canonical → ∀ i ∈ [Instr.acq o, .fence o], Ready i s g → (i = .fence o → g.storesGranted = true) →
   ∃ t g', exec i s = .next t ∧ Retired s t g g' ∧ sameRegs g g' ∧ g'.ld = g.ld ∧ g'.st = g.st ∧
     g'.ops.length = g.ops.length ∧ (∀ l ∈ (t.stall s.here).l1, l.loft = false → l.valid = 0) ∧
     (∀ (n : Nat) op, g.ops[n]? = some op → ∃ op', g'.ops[n]? = some op' ∧
       (op.performed = true ∨ op.kind ≠ .load → op' = op) ∧
       (op.kind = .load → op'.performed = true ∧ op'.kind = .load ∧ op'.dst = op.dst ∧ op'.accs = op.accs)) ∧
     ∀ op, g.ops = [op] → op.kind = .load → op.performed = false → op.got = [] →
       (op.accs.length = 1 ∨ ∀ a ∈ op.accs, a.uncached = true) →
       g'.ops.map Op.result = [loadWrites op.ty op.dst (op.accs.map (loaded s s.here g))]) ∧
  (∀ (o : Slot) s g x, s.gang? (gangOf s.cur) = some x →
   let m := scalarOf o g.r o.b
   let cleared := fun (bits : Word) => s.setGang (gangOf s.cur) { x with tags := x.tags &&& ~~~bits }
   let lim := fun (i : Nat) => o.imm.toNat / 256 ^ i % 256
   (Ready (.twaitall o) s g → x.tags &&& m = m →
     exec (.twaitall o) s = .next (((cleared m).acquireAt s.here).retiredAs g g.r)) ∧
   (Ready (.twaitall o) s g → x.tags &&& m ≠ m → exec (.twaitall o) s = .next (s.hold none false)) ∧
   (Ready (.twaitany o) s g → m ≠ 0 → ∀ n, n < 64 → (x.tags &&& m).getLsbD n = true →
     (∀ k, k < n → (x.tags &&& m).getLsbD k = false) →
     let ws := [RegWrite.s o.dst.num (BitVec.ofNat 64 n)]
     g.logFull (Effect.of 5 g m ws) = false →
     exec (.twaitany o) s = .next (((cleared (1#64 <<< n)).acquireAt s.here).retiredAs
       { g with effects := g.effects ++ [Effect.of 5 g m ws] } (g.r.setDst o.dst (BitVec.ofNat 64 n)))) ∧
   (Ready (.twaitany o) s g → m = 0 → g.logFull (Effect.of 5 g m [RegWrite.s o.dst.num 64]) = false →
     exec (.twaitany o) s = .next (s.retiredAs
       { g with effects := g.effects ++ [Effect.of 5 g m [RegWrite.s o.dst.num 64]] } (g.r.setDst o.dst 64))) ∧
   (Ready (.tffs o) s g → ∃ n : Nat, exec (.tffs o) s = .next (s.retiredAs g (g.r.setDst o.dst (BitVec.ofNat 64 n))) ∧
     ((x.tags &&& m = 0 ∧ n = 64) ∨
       (n < 64 ∧ (x.tags &&& m).getLsbD n = true ∧ ∀ k, k < n → (x.tags &&& m).getLsbD k = false))) ∧
   (Ready (.waitc o) s g → g.ld ≤ lim 0 → g.st ≤ lim 1 → g.cp ≤ lim 2 → g.tl ≤ lim 3 →
     exec (.waitc o) s = .next ((s.acquireAt s.here).retiredAs g g.r)) ∧
   (Ready (.waitc o) s g → (lim 0 < g.ld ∨ lim 1 < g.st ∨ lim 2 < g.cp ∨ lim 3 < g.tl) →
     exec (.waitc o) s = .next (s.hold none false)))

/-- The close of a stint (R42, R43, R126, R178): the group's next PC is the successor and RIC has risen by one; what lies
outside the carry set reads zero, with the trap registers, AWAIT and the baler's status, and STINTNO has risen; the
section holds those registers, RIC, panel time, the tags, the frames and the bytes of the carry ranges, beside the latest
complete copy. A boundary that completes brings every word that the group's stores have written home, where it is as it was in
the global order (that a completed release leaves its words at home is the model's choice, log 21; so is that the boundary
retires at the section's write, log 29). -/
def Obligations.StintClose : Prop := ∀ (s : State) g next, s.group? s.cur = some g →
  (∃ g' sec, (crossing s next).group? s.cur = some g' ∧ (crossing s next).last = .retired ∧ g'.ric = g.ric + 1 ∧
    g'.stage42 = .sectionSent next ∧ g'.r = { g.r.crossed g.carryS g.carryV with pc := g.succ } ∧
    g'.deliveries = g.deliveries ∧ g'.tasks = g.tasks ∧ g'.sections = sec :: (g.sections.filter Section.done).take 1 ∧
    sec.regs = g'.r ∧ sec.ric = g'.ric ∧ sec.time = s.ptime ∧ sec.done = false ∧
    sec.tags = (s.gang (gangOf s.cur)).tags ∧ sec.frames = g.frames ∧
    (g.wrote = [] → SameMemory s (crossing s next)) ∧
    (g.wrote = [] ∨ s.Canonical →
      sec.ranges = g.cranges.map fun x => (x.off, (s.stall s.here).scratch.readN (s.myGang.scrbase + x.off) x.len)) ∧
    (s.Canonical → SameReads s (crossing s next) ∧ g'.wrote = [] ∧
      ∀ w ∈ g.wrote, s.ownerOf (4 * w) = some (s.stallOf s.cur) → homeOfLoc (4 * w) ≠ 0x1FF →
        ∀ i, i < 4 → (crossing s next).gmem.read (4 * w + i) = s.coherent (4 * w + i))) ∧
  (∀ (r : Regs) cs cv n, kwf 0 r.s = true →
    (r.crossed cs cv).getS n = if cs.getLsbD n then r.getS n else 0) ∧
  (∀ (r : Regs) cs cv n l, l < 32 → kwf 0 r.v = true →
    (r.crossed cs cv).getV n l = if n < cv then r.getV n l else 0) ∧
  (∀ (r : Regs) cs cv, let r' := r.crossed cs cv
    r'.flmask = 0 ∧ r'.tcause = 0 ∧ r'.taddr = 0 ∧ r'.tpc = 0 ∧ r'.await = 0 ∧ r'.psn = false ∧ r'.ovf = false ∧
    r'.balepa = 0 ∧ r'.stintno = r.stintno + 1 ∧
    { r' with s := r.s, v := r.v, flmask := r.flmask, tcause := r.tcause, taddr := r.taddr, tpc := r.tpc,
              await := r.await, psn := r.psn, ovf := r.ovf, balepa := r.balepa, stintno := r.stintno } = r) ∧
  (∀ stall w, s.gmem.wf = true → let t := s.mergeWord stall w
    (∀ loc, t.coherent loc = s.coherent loc) ∧
    (s.ownerOf (4 * w) = some stall → homeOfLoc (4 * w) ≠ 0x1FF → ∀ i, i < 4 →
      t.gmem.read (4 * w + i) = s.coherent (4 * w + i)))

/-- The boundaries (R41, R42, R177, R214, R279, R318, R377, R378): REL, GBAR and STINT complete when their waits are over and
the credit takes place, and REL waits, its effect performed, while its records find no block; a boundary whose own effect
has been performed completes in the same way, in every form; within a serialised region each raises ILLEGAL_OP, with an
access outstanding each waits, and GBAR is no task's. -/
def Obligations.Boundaries : Prop := ∀ (o : Slot) s g,
  let plain := [Instr.rel o, .stint o, .barr o, .barrRemote o, .fset o, .unlock o, .enq o, .ybar o] ++
    (if o.ord = 3 then [Instr.stG o, .stL o, .stR o, .stRCnt o, .sts o] else []) ++
    (if 3 ≤ o.ord then [Instr.atomG o, .atomL o, .atomR o] else [])
  (Starts g → Credits s →
    (Ready (.rel o) s g → exec (.rel o) s = .next (crossing s .issue)) ∧
    (Ready (.gbar o) s g → g.r.taskId = 0 → exec (.gbar o) s = .next (crossing s .gbar)) ∧
    (Ready (.stint o) s g → g.cp = 0 → g.tl = 0 → s.clearsQueued = false →
      Credits (s.imageBanks s.here (gangOf s.cur)) →
      exec (.stint o) s = .next (crossing (s.imageBanks s.here (gangOf s.cur)) .issue))) ∧
  (Starts g → Creditable s → s.blockRoom true = false → Ready (.rel o) s g →
    exec (.rel o) s = .next ((s.setMe { g with stage42 := .effectDone, waitSince := none }).hold none true)) ∧
  (g.stage42 = .effectDone → g.r.serial = false → Credits s →
    (∀ i ∈ plain, Ready i s g → exec i s = .next (crossing s .issue)) ∧
    (Ready (.gbar o) s g → g.r.taskId = 0 → exec (.gbar o) s = .next (crossing s .gbar))) ∧
  (∀ i ∈ plain, Ready i s g → g.r.serial = true →
    exec i s = .next (s.takeException false (Trap.whole .illegalOp 0))) ∧
  (∀ i ∈ plain, Ready i s g → g.r.serial = false → g.sent = false → g.ld ≠ 0 ∨ g.st ≠ 0 →
    exec i s = .next (s.hold none false)) ∧
  (Ready (.gbar o) s g → g.r.taskId ≠ 0 → exec (.gbar o) s = .next (s.takeException false (Trap.whole .illegalOp 0)))

/-- The boundaries with an effect of their own (R42, R149, R224, R329, R387, R389, R393): BARR, FSET, UNLOCK, ENQ and YBAR
perform it and hold its reply with the section, under their own PC; BARR on another stall's object, and ATOM.R in its release
forms, once their reply has come; the release forms of stores enter the global order at once. A reply held for the instruction
from before is taken without performing anything again. -/
def Obligations.BoundaryEffects : Prop := ∀ (o : Slot) s g,
  let ordered := fun (u : State) => if o.ord = 4 then u.acquireAt u.here else u
  (∀ op, Starts g.dropErrand → answered g op → 3 ≤ o.ord → (∀ ws, g.heldReply ≠ some (g.r.pc, ws)) → Ready (.atomR o) s g →
    let u := ordered (replied (s.setMe g.dropErrand) op.result)
    Credits u → exec (.atomR o) s = .next (crossing u .issue)) ∧ (Starts g →
  let ea := eaScalar o g.r
  let value := scalarOf o g.r o.b
  let completes := fun (i : Instr) (u : State) => Ready i s g → Credits u → exec i s = .next (crossing u .issue)
  (∀ ws, g.heldReply = some (g.r.pc, ws) →
    (∀ i ∈ [Instr.barr o, .barrRemote o, .fset o, .unlock o, .enq o, .ybar o], completes i (s.setRegs (g.r.writes ws))) ∧
    (3 ≤ o.ord → ∀ i ∈ [Instr.atomG o, .atomL o, .atomR o], completes i (ordered (s.setRegs (g.r.writes ws))))) ∧
  ((∀ ws, g.heldReply ≠ some (g.r.pc, ws)) →
    (∀ off, s.ownStruct (gangOf s.cur) ea 32 32 = .ok off → s.scrPoisoned s.here off 32 = false →
      s.objectOk s.here off = true → s.countOk s.here off (value.setWidth 32) = true →
      completes (.barr o) (replied (s.updateObject s.here off 1 0)
        [.s o.dst.num (BitVec.ofNat 64 (s.objWord s.here off 4))])) ∧
    (∀ op, answered g op → completes (.barrRemote o) (replied (s.setMe g.dropErrand) op.result)) ∧
    (∀ rec, g.r.taskId ≠ 0 → s.homeAcc true g.r.taskId 128 1 .write = .ok rec → s.recordOk rec = true →
      recState (s.wordAt rec 3) ≠ 3 →
      completes (.fset o) (replied ((s.setWordAt rec 2 value).setRecord rec 3 0) [])) ∧
    (∀ a, s.atomicAcc 0 ea 8 = .ok a → s.wordAt a.loc 0 = g.r.taskId ||| 1 →
      completes (.unlock o) (replied
        (((s.setWordAt a.loc 0 0).wakeLock a.loc).modMe fun g =>
          { g with locks := g.locks.filter fun p => p.1 != ea }) [])) ∧
    (∀ q e, queueAt ea s = .ok q → s.ownReachable = true → s.promiseIn ea = none → (q.tail - q.head).toNat < q.cap →
      entryAt ea (q.tail.toNat % q.cap) s = .ok e →
      completes (.enq o) (replied (((s.setWordAt e 0 value).setWordAt e 1 2).setWordAt q.loc 2 (q.tail + 1)) [])) ∧
    (∀ q e, let d := min g.r.depth.toNat 3
      queueAt ea s = .ok q → s.ownReachable = true → s.promiseIn ea = none → q.cap ≤ (q.tail - q.head).toNat →
      q.rsv.getLsbD d = false → entryAt ea (q.cap + d) s = .ok e →
      completes (.enq o) (replied
        (((s.setWordAt e 0 value).setWordAt e 1 2).setWordAt q.loc 3 (q.rsv ||| (1#64 <<< d))) [])) ∧
    (∀ q, queueAt ea s = .ok q → s.ownReachable = true → s.promiseIn ea = none → q.cap ≤ (q.tail - q.head).toNat →
      q.rsv.getLsbD (min g.r.depth.toNat 3) = true → Ready (.enq o) s g →
      exec (.enq o) s = .next (s.hold (some (.room ea (min g.r.depth.toNat 3))) false)) ∧
    (∀ y, yardFor ea s = .ok y → y.takesPart s.myStall = true → kget 0 y.arrived s.myStall < y.yper →
      completes (.ybar o) (replied
        (s.setYard s.myYard { y with arrived := kset 0 y.arrived s.myStall (kget 0 y.arrived s.myStall + 1) })
        [.s o.dst.num ((kget 0 y.rounds s.myStall).setWidth 64)]))) ∧
  (∀ acc : Nat → Acc, o.ord = 3 →
    ((∀ l ∈ g.r.active, s.globalAcc l (eaGlobal o g.r l) o.ty.bytes .write = .ok (acc l)) →
      completes (.stG o) (s.storeAtOnce (g.r.active.map fun l => withValue o g.r (acc l)))) ∧
    ((∀ l ∈ g.r.active, s.ownAcc l (eaOffset o g.r l) o.ty.bytes .write = .ok (acc l)) →
      completes (.stL o) (s.storeOwn (g.r.active.map fun l => withValue o g.r (acc l)))) ∧
    (∀ a, stsAcc o s = .ok a → completes (.sts o) (if o.space = 0 then s.storeAtOnce [a] else s.storeOwn [a]))) ∧
  (∀ acc : Nat → Acc, 3 ≤ o.ord → (∀ ws, g.heldReply ≠ some (g.r.pc, ws)) →
    let xs := g.r.active.map fun l => withOperands o g.r (acc l)
    let after := fun (i : Instr) (p : State × List (Nat × Nat)) =>
      ordered (replied p.1 (loadWrites o.ty (if o.bit34 then [] else Instr.writesRegs i) p.2))
    (∀ p, (∀ l ∈ g.r.active, s.atomicAcc l (eaGlobal o g.r l) o.ty.bytes = .ok (acc l)) → runGlobal o xs s = .ok p →
      completes (.atomG o) (after (.atomG o) p)) ∧
    ((∀ l ∈ g.r.active, s.ownAcc l (eaOffset o g.r l) o.ty.bytes .update = .ok (acc l)) →
      completes (.atomL o) (after (.atomL o)
        (s.runAtomics (bankRead s.here) (bankWrite s.here) (aopOf o.aop) o.ty xs)))))

/-- EXIT (R47, R188, R379): at depth 0 the group ends, with nothing staged left; an adopted task's EXIT ends the task, and
the group has its frame's registers again, the waiting instruction as next PC, STINTNO one more than the frame's (the
model's choice, log 30). -/
def Obligations.Exits : Prop := ∀ (o : Slot) s g, Ready (.exit o) s g → Starts g → Credits s →
  (g.r.depth = 0 →
    ∃ t g', exec (.exit o) s = .next t ∧ Retired s t g g' ∧ g'.standing = .exited ∧ g'.deliveries = [] ∧ g'.tasks = []) ∧
  (∀ f rest, s.Canonical → g.r.depth ≠ 0 → g.cp = 0 → g.tl = 0 → g.frames = f :: rest →
    s.recordsDead (gangOf s.cur) = false →
    ∃ t g' sec, exec (.exit o) s = .next t ∧ t.last = .retired ∧ t.group? s.cur = some g' ∧
      g'.r = { f.regs with stintno := f.regs.stintno + 1 } ∧ g'.frames = rest ∧ g'.ric = g.ric + 1 ∧
      g'.stage42 = .sectionSent .issue ∧ g'.sections.head? = some sec ∧ sec.regs = g'.r ∧ sec.frames = rest ∧ sec.done = false) ∧
  (g.r.depth ≠ 0 → (g.cp ≠ 0 ∨ g.tl ≠ 0) → exec (.exit o) s = .next (s.hold none false))

/-- Barrier objects (R182, R327 to R329): BINIT's eight words, BWAIT and BTEST on a round that has passed or has not, and
the update of an object: its counts, its round, and nothing else of it. -/
def Obligations.BarrierObjects : Prop := ∀ (o : Slot) s g off, s.Canonical →
  let ea := eaScalar o g.r
  let low := fun (x : Opnd) => (scalarOf o g.r x).setWidth 32
  let round := BitVec.ofNat 32 (s.objWord s.here off 4)
  let passed := 1 ≤ (round - low o.b).toNat ∧ (round - low o.b).toNat ≤ 0x7FFFFFFF
  (Ready (.binit o) s g → s.ownStruct (gangOf s.cur) ea 32 32 = .ok off →
    (s.stall s.here).locked false off 32 true = false → g.st < 63 →
    ∃ t g' op, exec (.binit o) s = .next t ∧ Retired s t g g' ∧ sameRegs g g' ∧ counted false g g' op ∧
      t.objWord s.here off 0 = (low o.b).toNat ∧ t.objWord s.here off 1 = (low o.c).toNat ∧
      t.objWord s.here off 5 = 1 ∧ (∀ i ∈ [2, 3, 4, 6, 7], t.objWord s.here off i = 0) ∧
      ∀ a, (a < off ∨ off + 32 ≤ a) → (t.stall s.here).scratch.read a = (s.stall s.here).scratch.read a) ∧
  (s.ownStruct (gangOf s.cur) ea 32 32 = .ok off → s.scrPoisoned s.here off 32 = false → s.objectOk s.here off = true →
    (Ready (.bwait o) s g → passed → exec (.bwait o) s = .next ((s.acquireAt s.here).retiredAs g g.r)) ∧
    (Ready (.bwait o) s g → ¬passed → exec (.bwait o) s = .next (s.hold (some (.barrier off (low o.b))) false)) ∧
    (Ready (.btest o) s g → logRoom g 8 → ∃ p : Nat, (p = 1 ∧ passed ∨ p = 0 ∧ ¬passed) ∧
      let ws := [RegWrite.s o.dst.num (BitVec.ofNat 64 (round.toNat * 2 ^ 32 + p))]
      exec (.btest o) s = .next ((s.acquireIf (p == 1)).retiredAs
        { g with effects := g.effects ++ [Effect.of 5 g ea ws] } (g.r.writes ws)))) ∧
  (∀ stall da db, let t := s.updateObject stall off da db
    let w := fun (u : State) (i : Nat) => u.objWord stall off i
    let arr := (w s 2 + da) % 2 ^ 32
    let landed := (w s 3 + db) % 2 ^ 32
    (w s 0 ≤ arr → w s 1 ≤ landed →
      w t 2 = arr - w s 0 ∧ w t 3 = landed - w s 1 ∧ w t 4 = (w s 4 + 1) % 2 ^ 32) ∧
    ((arr < w s 0 ∨ landed < w s 1) → w t 2 = arr ∧ w t 3 = landed ∧ w t 4 = w s 4) ∧
    ∀ i ∈ [0, 1, 5, 6, 7], w t i = w s i)

/-- CART, CARTG, BALE and GROOM (R131, R153, R182, R187, R189, R324, R325, R339, R370): with the descriptor's checks passed
and room in the queue, the command enters the queue of its engine and counts in CP; BALE sets the baler's status at once,
and its command holds the blocks. That GROOM captures MCAP and s1 at its issue is the model's reading (log 40), and so is the
stable that works on a tile in the place of a lost OWNER (log 70). -/
def Obligations.EngineRequests : Prop := ∀ (o : Slot) s g d pages, s.Canonical →
  let ea := eaScalar o g.r
  let b := scalarOf o g.r o.b
  let tag := if b.getLsbD 6 then none else some (b.toNat % 64)
  let key := match tag with | some n => BitVec.ofNat 64 n | none => g.r.pc
  let st := s.stall s.here
  let carted := fun (i : Instr) (eng : Eng) (spans : List Span) (c : Cmd) =>
    st.cartq.length < 16 → g.cp < 63 →
    ∃ t g', exec i s = .next t ∧ Retired s t g g' ∧ g'.cp = g.cp + 1 ∧ c.tag = tag ∧ c.pages = pages ∧
      Entered s t g g' eng spans key c ∧ (t.stall s.here).cartq = st.cartq ++ [c] ∧
      (eng ≠ .bale → sameRegs g g')
  (Ready (.cart o) s g → s.descriptor ea = .ok d →
    s.checkSpans (cartFlaws d ea) (s.barFits (cartBar d) (cartBarOff d)) (cartSpans d) = .ok pages →
    Admits s g (cartSpans d) pages tag (cartPayload d) →
    ∃ c, c.kind = .cart d ∧ carted (.cart o) .cart (cartSpans d) c) ∧
  (Ready (.cartg o) s g → s.descriptor ea = .ok d →
    s.checkSpans (gatherFlaws d ea) (s.barFits (gatherBar d) (gatherBarOff d)) (gatherChecked d) = .ok pages →
    g.storesGranted = true → s.listBusy d = false →
    s.indexPoison d = [] → indexFlaw d 0 (s.gatherList d) = [] →
    Admits s g (gatherSpans d) pages tag (gatherCount d * gatherRowB d) →
    ∃ c, c.kind = .cartg d (s.gatherList d) ∧ carted (.cartg o) .cartg (gatherSpans d) c) ∧
  (Ready (.bale o) s g → s.descriptor ea = .ok d → (∃ ps, s.checkSpans [] (baleFlaws d ea) (baleSpans d) = .ok ps) →
    pages = [] → g.storesGranted = true →
    st.blocked s.nextCmd ((baleSpans d).map fun x => s.lockOf x .bale 0 s.nextCmd) = false →
    baleTraps (baleCmd d) (s.baleBad d) (s.baleNow d) = .ok () →
    Admits s g (baleSpans d) [] tag ((baleCmd d).spans * (baleCmd d).blockBytes) →
    ∃ c, c.kind = .bale ∧ c.out = (s.baleNow d).blocks ∧ carted (.bale o) .bale (baleSpans d) c ∧
      (st.cartq.length < 16 → g.cp < 63 → ∃ t g', exec (.bale o) s = .next t ∧ t.group? s.cur = some g' ∧
        g'.r = { g.r with
          pc := g.succ, psn := g.r.psn || (s.baleNow d).poison.isSome, ovf := g.r.ovf || (s.baleNow d).replaced,
          balepa := if (s.baleNow d).poison.isSome && !g.r.psn then (s.baleNow d).poison.getD 0 else g.r.balepa })) ∧
  (∀ off, Ready (.groom o) s g → s.ownStruct (gangOf s.cur) ea 64 64 = .ok off → st.locked false off 64 false = false →
    s.scrPoisoned s.here off 64 = false → d = s.scr s.here off 64 →
    s.checkSpans (groomFlaws d ea) (flaw (s.groomTile d) .permission ea)
      (if gmTemp d then (List.range 16).map (motionRow d) else []) = .ok pages →
    Admits s g (groomSpans d ea) pages tag 8 →
    let owner := s.groomStable (tileOwner (s.tileEntry s.myStable (gmTx d) (gmTy d))) (gangOf s.cur)
    (s.stable owner).groomq.length + (s.stable owner).jobs.length < 64 → g.cp < 63 →
    ∃ t g' c, exec (.groom o) s = .next t ∧ Retired s t g g' ∧ sameRegs g g' ∧ g'.cp = g.cp + 1 ∧ c.tag = tag ∧
      c.kind = .groom d ea.toNat g.r.mcap (g.r.getS 1) ∧ c.pages = pages ∧
      Entered s t g g' .groom (groomSpans d ea) key c ∧ (t.stable owner).groomq = (s.stable owner).groomq ++ [c])

/-- MLOOP, MDRAIN and MCLR (R153, R154, R187, R332, R342 to R347): the bank is bound, and the command enters the plane-array
queue; MLOOP and MDRAIN count in TL and join the open batch, MCLR does neither. PLZ zeroes its words at once and sets their
zero-map bits, and changes no other bit of the map (R95, R341). -/
def Obligations.PlaneRequests : Prop := ∀ (o : Slot) s g pages, s.Canonical →
  let a := g.r.getS o.a.num
  let b := g.r.getS o.b.num
  let ea := eaScalar o g.r
  let c := scalarOf o g.r o.c
  let st := s.stall s.here
  let queued := fun (i : Instr) (u : State) (eng : Eng) (spans : List Span) (key : Word) (cmd : Cmd) (n : Nat) =>
    ∃ t g', exec i s = .next t ∧ Retired s t g g' ∧ sameRegs g g' ∧ g'.tl = g.tl + n ∧
      g'.openCmds = g.openCmds ++ List.replicate n cmd.id ∧ cmd.tag = none ∧
      Entered s t g g' eng spans key cmd ∧ (t.stall s.here).planeq = st.planeq ++ [cmd] ∧
      (t.stall s.here).banks = (u.stall s.here).banks
  (∀ u bank, s.bindBank o.bank = some (u, bank) → st.planeq.length < 8 →
    ((u.stall s.here).banks[bank]?.bind Bank.bound = some (gangOf s.cur, o.bank)) ∧
    (∀ spans, Ready (.mloop o) s g → c.extractLsb' 48 16 = 0 → g.tl < 63 →
      spans = [mloopSpan a (mloopSteps c) (mloopAinc c) (o.pam + 1), mloopSpan b (mloopSteps c) (mloopBinc c) (o.pbm + 1)] →
      s.checkSpans [] (flaw (a.toNat % 32 = 0) .misaligned a ++ flaw (b.toNat % 32 = 0) .misaligned b) spans = .ok pages →
      Admits s g spans [] none 0 →
      ∃ cmd, cmd.kind = .mloop o a b c bank ∧ queued (.mloop o) u .mloop spans (g.r.batchOpen.setWidth 64) cmd 1) ∧
    (∀ spans, Ready (.mdrain o) s g → c.extractLsb' 38 2 = 0 → c.extractLsb' 48 16 = 0 → g.tl < 63 →
      spans = drainSpans o ea b c →
      s.checkSpans [] (flaw (ea.toNat % 16 = 0 && drainPitch c % 16 = 0) .misaligned ea ++
        flaw (!o.bias || b.toNat % 4 = 0) .misaligned b) spans = .ok pages →
      Admits s g spans [] none (128 * o.ty.bits + if o.exp then 64 else 0) →
      ∃ cmd, cmd.kind = .mdrain o ea.toNat b c bank ∧
        queued (.mdrain o) u .mdrain spans (g.r.batchOpen.setWidth 64) cmd 1) ∧
    (Ready (.mclr o) s g → Admits s g [] [] none 0 →
      ∃ cmd, cmd.kind = .mclr o bank ∧ queued (.mclr o) u .mloop [] g.r.pc cmd 0)) ∧
  (let n := (scalarOf o g.r o.b).toNat % 2 ^ 14
   let span : Span := { glb := false, dst := true, lo := ea.toNat, hi := (ea.toNat + 32 * n : Nat) }
   Ready (.plz o) s g → s.checkSpans [] (flaw (ea.toNat % 32 = 0) .misaligned ea) [span] = .ok pages →
   st.locks.length < 16 → st.blocked s.nextCmd [s.lockOf span .plz 0 s.nextCmd] = false →
   g.storesGranted = true → (∀ op ∈ g.ops, op.performed = true) →
   ∃ t g', exec (.plz o) s = .next t ∧ Retired s t g g' ∧ sameRegs g g' ∧ t.gmem = s.gmem ∧ t.loft = s.loft ∧
     (∀ x, (t.stall s.here).scratch.read x =
       if s.myGang.scrbase + ea.toNat ≤ x ∧ x < s.myGang.scrbase + ea.toNat + 32 * n then 0
       else (s.stall s.here).scratch.read x) ∧
     (kwf false st.zmap = true → ∀ w, kget false (t.stall s.here).zmap w =
       if (s.myGang.scrbase + ea.toNat) / 32 ≤ w ∧ w < (s.myGang.scrbase + ea.toNat) / 32 + n then true
       else kget false st.zmap w))

/-- MFENCE, MWAIT and ACTLD (R154, R184, R345, R348): a batch closed and numbered, complete at once when nothing of it or of
an earlier one is queued; a wait on a batch that is complete, under way, or never opened; an activation table loaded from
its 65 words. -/
def Obligations.Batches : Prop := ∀ (o : Slot) s g,
  (Ready (.mfence o) s g → g.batches.length < 8 →
    ∃ t g', exec (.mfence o) s = .next t ∧ Retired s t g g' ∧ g'.openCmds = [] ∧
      g'.r = { g.r.setDst o.dst (g.r.batchOpen.setWidth 64) with
        batchOpen := g.r.batchOpen + 1, batchDone := g'.r.batchDone, pc := g.succ } ∧
      (g.batches = [] → g.openCmds = [] → g'.r.batchDone = g.r.batchOpen ∧ g'.batches = []) ∧
      (g.batches = [] → g.openCmds ≠ [] →
        g'.r.batchDone = g.r.batchDone ∧
        g'.batches = [{ number := g.r.batchOpen, cmds := g.openCmds, mark := s.nextCmd }])) ∧
  (Ready (.mfence o) s g → 8 ≤ g.batches.length → exec (.mfence o) s = .next (s.hold none false)) ∧
  (Ready (.mwait o) s g →
    let n := (scalarOf o g.r o.b).setWidth 16
    let ahead := (g.r.batchOpen - n).toNat
    exec (.mwait o) s = .next (if (g.r.batchDone - n).toNat < 0x8000 then (s.acquireAt s.here).retiredAs g g.r
      else if 1 ≤ ahead ∧ ahead ≤ 8 then s.hold none false
      else s.takeException false (Trap.whole .illegalOp 0))) ∧
  (∀ off x, let ea := eaScalar o g.r
    let i := (scalarOf o g.r o.b).toNat % 4
    let w := fun (k : Nat) => s.scr s.here (off + 8 * k) 8
    Ready (.actld o) s g → s.tableInUse i = false → s.ownStruct (gangOf s.cur) ea 520 8 = .ok off →
    (s.stall s.here).locked false off 520 false = false → s.scrPoisoned s.here off 520 = false →
    badActWord ((List.range 65).map w) = none → s.gang? (gangOf s.cur) = some x →
    ∃ tbl, exec (.actld o) s = .next ((s.setGang (gangOf s.cur) { x with tables := x.tables.set i tbl }).retiredAs g g.r) ∧
      tbl.shift = BitVec.ofNat 6 (w 0) ∧ tbl.fs = BitVec.ofNat 5 (w 0 / 256) ∧
      tbl.base = (List.range 64).map (fun k => BitVec.ofNat 32 (w (k + 1))) ∧
      tbl.slope = (List.range 64).map fun k => BitVec.ofNat 16 (w (k + 1) / 2 ^ 32))

/-- SCACC and DRAW (R70, R349, R356): the running sum of a scaled accumulator element, NaN where an exponent is 0x7F; the
counter-based generator, its upper 24 bits as a fraction in the form of F32. -/
def Obligations.LaneFunctions : Prop := ∀ o : Slot,
  givesLane (.scacc o) o .f32 (fun r l =>
    let e := laneOf o r o.b .f32 l
    let p := ((r.getVV o.a.num l).setWidth 48).toInt
    if e % 128 = 0x7F ∨ e / 256 % 128 = 0x7F then 0x7FC00000
    else fmtF32.round 0 (Number.add 0 (fmtF32.decode (r.getV o.dst.num l).toNat)
      ((fmtF32.decode (fmtF32.round 0 (Number.ofInt p))).scale ((e % 128 : Nat) + (e / 256 % 128 : Nat) - 126)))) ∧
  givesLane (.draw o) o .n32 (fun r l =>
    let a := (r.getV o.a.num l ^^^ r.rngKey0) * 0x9E3779B1#32
    let b := ((BitVec.ofNat 32 (laneOf o r o.b .n32 l) ^^^ r.rngKey1) ^^^ (a >>> 16)) * 0x7FEB352D#32
    let a := (a ^^^ (b >>> 15)) * 0x846CA68B#32
    let x := a ^^^ (b ^^^ (a >>> 16))
    if o.ty = .f32 then fmtF32.round 0 (.fin false (x >>> 8).toNat (-24)) else x.toNat)

/-- RSUPD, RSMRG and RSNRM (R355, R357 to R359): each active lane's eight registers take the record that the rule gives,
then the flag joins the lane of the flag register, which may be one of the eight; every other lane stays. A null source or
an invalid weight adds nothing to the sum. RSLD and RSST (R113, R166, R187, R360, R361): each active lane's record is read
into eight registers, which the operation holds; a store writes each active lane's seven words and a zero word at its
record's place, the highest lane's where two name one record, and no other record or memory; with no lane active neither
does anything. That both are performed at their issue is the model's choice (log 7; R361 has a store performed at its grant). -/
def Obligations.Reservoirs : Prop :=
  (∀ (o : Slot) s g,
   let r := g.r
   let folds := fun (i : Instr) (f : Nat → Record × Lane) => Ready i s g →
     ∃ r', exec i s = .next (s.retiredAs g r') ∧ { r' with v := r.v } = r ∧ (kwf 0 r.v = true →
       (∀ l ∈ r.active, ∀ k, k < 8 → (o.bit34 = true → o.dst.num + k ≠ o.c.num) →
         r'.getV (o.dst.num + k) l = (f l).1.w k) ∧
       (o.bit34 = true → ∀ l ∈ r.active,
         let was := if o.dst.num ≤ o.c.num ∧ o.c.num < o.dst.num + 8 then (f l).1.w (o.c.num - o.dst.num)
           else r.getV o.c.num l
         r'.getV o.c.num l = was ||| (f l).2) ∧
       ∀ n l, l < 32 → (r.exm.getLsbD l = false ∨
           ((n < o.dst.num ∨ o.dst.num + 8 ≤ n) ∧ (o.bit34 = false ∨ n ≠ o.c.num))) → r'.getV n l = r.getV n l)
   let cap := if r.mcap = 0 then 0xFFFFFFFF else r.mcap.toNat
   let mine := fun l => r.group o.dst.num 8 l
   folds (.rsupd o) (fun l => recordUpdate cap (mine l) (r.group o.a.num 4 l) (BitVec.ofNat 32 (laneOf o r o.b .n32 l))) ∧
   folds (.rsmrg o) (fun l => recordMerge cap (mine l) (r.group o.a.num 8 l) (r.getV o.b.num l) (r.getV (o.b.num + 1) l)) ∧
   folds (.rsnrm o) (fun l => recordNormalise (mine l)) ∧
   (∀ c : Record, ∀ u, invalid32 (c.w 2) = true → (recordUpdate cap (mine 0) c u).2 = 1 ∧
     (recordUpdate cap (mine 0) c u).1.w 2 = fadd32 0 (Record.w (mine 0) 2) 0) ∧
   (∀ x : Record, x.w 0 = nullSample → (recordNormalise x).2 = 0 ∧ (recordNormalise x).1.w 3 = 0)) ∧
  (∀ (o : Slot) s g (recs : Nat → Record) (place : Nat → Nat × Nat),
   (Ready (.rsld o) s g → g.r.exm ≠ 0 → g.ld < 63 →
     (∀ l ∈ g.r.active, s.readRecord s.myStable (baseGlobal g.r o.a l) = .ok (recs l)) →
     ∃ t g' op, exec (.rsld o) s = .next t ∧ Retired s t g g' ∧ sameRegs g g' ∧ counted true g g' op ∧ SameMemory s t ∧
       op.result = g.r.active.flatMap fun l =>
         ((List.range 8).zip (recs l)).map fun q => RegWrite.v (o.dst.num + q.1) l q.2) ∧
   (∀ i ∈ [Instr.rsld o, .rsst o], Ready i s g → g.r.exm = 0 → exec i s = .next (s.retiredAs g g.r)) ∧
   (Ready (.rsst o) s g → g.r.exm ≠ 0 → g.st < 63 →
     (∀ l ∈ g.r.active, s.recordAt s.myStable (baseGlobal g.r o.a l) = some (place l)) →
     ∃ t g' op, exec (.rsst o) s = .next t ∧ Retired s t g g' ∧ sameRegs g g' ∧ counted false g g' op ∧
       t.gmem = s.gmem ∧ t.stalls = s.stalls ∧ t.loft = s.loft ∧
       (kwf Barn.fresh s.barns = true → (∀ b, (s.barn b).store.wf = true) →
         let apart := fun (p q : Nat × Nat) => p.1 ≠ q.1 ∨ p.2 + 32 ≤ q.2 ∨ q.2 + 32 ≤ p.2
         (∀ l ∈ g.r.active, (∀ k ∈ g.r.active, k ≤ l ∨ apart (place k) (place l)) →
           t.getRecord (place l).1 (place l).2 = ((List.range 7).map fun k => g.r.getV (o.b.num + k) l) ++ [0]) ∧
         ∀ q : Nat × Nat, (∀ l ∈ g.r.active, apart (place l) q) → t.getRecord q.1 q.2 = s.getRecord q.1 q.2)))

/-- RAYQ, RAYV, LTREE, VOLLD, VOLST and TRET (R187, R320, R363, R365 to R367): with the root's or the voxels' checks passed
the queries and loads count in LD with their lanes' inputs or values, a store of voxels counts in ST; an absent tile loads
the background, a present one the voxel's bytes, into one register, or two or four for a voxel of 8 or 16 bytes (performed at
issue, log 7; stated of a lone access and of uncached pages); TRET ends the callable's run, and its caller's operation holds
v0 of each requested lane. -/
def Obligations.RayRequests : Prop := ∀ (o : Slot) s g,
  let root := g.r.getS o.b.num
  let sent := fun (i : Instr) (kind : OpKind) => g.r.exm ≠ 0 → g.ld < 63 →
    ∃ t g' op, exec i s = .next t ∧ Retired s t g g' ∧ sameRegs g g' ∧ counted true g g' op ∧ SameMemory s t ∧
      op.kind = kind ∧ op.dst = Instr.writesRegs i
  let inputs := fun (n : Nat) => g.r.active.map fun l => (l, (List.range n).map fun k => g.r.getV (o.a.num + k) l)
  (Ready (.rayq o) s g → s.checkRoot root 128 = .ok () → sent (.rayq o) (.ray false root (inputs 8))) ∧
  (Ready (.rayv o) s g → s.checkRoot root 128 = .ok () → sent (.rayv o) (.ray true root (inputs 8))) ∧
  (Ready (.ltree o) s g → s.checkRoot root 16 = .ok () →
    sent (.ltree o) (.ltree root ((inputs 2).map fun p => (p.1, p.2 ++ [g.r.rngKey0, g.r.rngKey1])))) ∧
  (∀ u vs, Ready (.volld o) s g → gatherVoxels o false s = .ok (u, vs) → g.ld < 63 → g.r.exm ≠ 0 →
    (∀ a ∈ voxelAccsOf vs, s.pendingByOther a.loc a.bytes = false) →
    ∃ t g' op, exec (.volld o) s = .next t ∧ Retired s t g g' ∧ sameRegs g g' ∧ counted true g g' op ∧
      (let wrote := fun (l x : Nat) => ∀ k, k < max 1 (voxelBytes o.vsz / 4) →
        RegWrite.v (o.dst.num + k) l (BitVec.ofNat 32 (x / 2 ^ (32 * k))) ∈ op.result
       let value := fun (a : Acc) => (loaded u u.here u.me a).2
       let accs := voxelAccsOf vs
       (∀ l b, (l, Voxel.background b) ∈ vs → wrote l b) ∧
       (u.Canonical → (∀ op ∈ u.me.ops, op.performed = true) → (accs.length = 1 ∨ ∀ a ∈ accs, a.uncached = true) →
         (vs.map Prod.fst).Nodup → (∀ l as, (l, Voxel.stored as) ∈ vs → ∀ a ∈ as, a.lane = l) →
         (∀ l a, (l, Voxel.stored [a]) ∈ vs → wrote l (value a)) ∧
         ∀ l a b, (l, Voxel.stored [a, b]) ∈ vs → wrote l (value a + value b * 2 ^ 64)))) ∧
  (∀ u vs, Ready (.volst o) s g → gatherVoxels o true s = .ok (u, vs) → g.st < 63 → g.r.exm ≠ 0 → u.me = g → u.cur = s.cur →
    voxelAccsOf vs ≠ [] →
    ∃ t g' op, exec (.volst o) s = .next t ∧ Retired s t g g' ∧ sameRegs g g' ∧ counted false g g' op) ∧
  (∀ q c op, Ready (.tret o) s g → isCallable s.cur = true → g.ld = 0 → (s.stall s.here).calling = some q →
    kwf Stall.fresh s.stalls = true → q.who = .group → q.grp ≠ s.cur → s.group? q.grp = some c → c.ops = [op] →
    op.kind = .call →
    ∃ t c' op', exec (.tret o) s = .next t ∧ t.last = .retired ∧ t.group? q.grp = some c' ∧ c'.ops = [op'] ∧
      op'.kind = .replied ∧ (t.stall s.here).calling = none ∧
      ∀ n l, op.dst = [.v n] → l ∈ lanesOf q.lanes → RegWrite.v n l (g.r.getV 0 l) ∈ op'.result)

/-- LAUNCH, FETCHW, SPAWN and LREFILL (R40, R139, R143, R182, R376, R380 to R382): the append's answer in sd and in the log;
the request and the items among the group's deliveries, staged as already checked (the model's choice, log 43), DEADLOCK beyond
512 staged items; LREFILL without an item changes no register but makes its log entry all the same (the model's choice, log
36), and with one fills the lowest free lane from the oldest, and waits while a load is outstanding. -/
def Obligations.WorkRequests : Prop := ∀ (o : Slot) s g,
  let a := g.r.getS o.a.num
  let b := scalarOf o g.r o.b
  let q := s.queue b.toNat
  let answers := fun (u : State) (x : Word) =>
    exec (.launch o) s = .next (u.retiredAs
      { g with effects := g.effects ++ [Effect.of 1 g a [.s o.dst.num x]] } (g.r.setDst o.dst x))
  let stages := fun (i : Instr) (ps : List Parcel) =>
    exec i s = .next (s.retiredAs { g with deliveries := g.deliveries ++ ps.map fun p =>
      { parts := [p], checked := true, bound := [gangOf s.cur], failed := none, store := none } } g.r)
  let items := fun (pc : Word) => g.r.active.map fun l => Parcel.item pc (g.r.getVV o.a.num l) g.stage
  let target := if o.b.kind = .i then displaced o g.r.pc else g.r.getS o.b.num
  (Ready (.launch o) s g → logRoom g 8 →
    (64 ≤ b.toNat → answers s 0x300000000) ∧
    (b.toNat < 64 → q.en = false → answers (s.setQueue b.toNat { q with off := true }) 0x100000000) ∧
    (b.toNat < 64 → q.en = true → 256 ≤ q.entries.length →
      answers (s.setQueue b.toNat { q with full := true }) 0x200000000) ∧
    (b.toNat < 64 → q.en = true → q.entries.length < 256 → ∃ lid : BitVec 32,
      answers { s.setQueue b.toNat { q with entries := q.entries ++ [(a, lid)] } with nextLid := lid + 1 }
        (lid.setWidth 64) ∧
      (s.lidBusy s.nextLid = false → lid = s.nextLid))) ∧
  (Ready (.fetchw o) s g → s.mailboxOk (eaScalar o g.r) = true → (eaScalar o g.r).toNat % 32 = 0 →
    stages (.fetchw o) [.fetchw (eaScalar o g.r).toNat]) ∧
  (∀ i ∈ [Instr.spawn o, .spawnIndirect o], Ready i s g →
    (g.stagedItems + g.r.active.length ≤ 512 → stages i (items target)) ∧
    (512 < g.stagedItems + g.r.active.length → exec i s = .next (s.takeException false
      { cause := .deadlock, lanes := g.r.exm, addr := 0, wr := false, fetch := false, mal := false }))) ∧
  (Ready (.lrefill o) s g → s.atTarget = true → g.ld ≠ 0 → exec (.lrefill o) s = .next (s.hold none false)) ∧
  (Ready (.lrefill o) s g → s.atTarget = false →
    exec (.lrefill o) s = .next (s.takeException false (Trap.whole .illegalOp 0))) ∧
  (Ready (.lrefill o) s g → s.atTarget = true → g.ld = 0 → logRoom g 256 →
    let found := s.itemsFor s.here (gangOf s.cur) g.stage g.r.pc
    (found = [] → ∃ t g', exec (.lrefill o) s = .next t ∧ Retired s t g g' ∧ sameRegs g g' ∧ SameMemory s t ∧
      logs g g' 5 g.r.pc []) ∧
    (∀ l it, found = [it] → l < 32 → g.r.exm.getLsbD l = false → (∀ k, k < l → g.r.exm.getLsbD k = true) →
      kwf Stall.fresh s.stalls = true → kwf 0 g.r.v = true → ((s.stall s.here).itemq = [it] ∧ (s.stall s.here).bins = [] ∧
        (s.stall s.myStall).spill = []) →
      ∃ t g', exec (.lrefill o) s = .next t ∧ Retired s t g g' ∧ g'.r.exm = g.r.exm ||| (1#32 <<< l) ∧
        g'.r.getVV 0 l = it.payload ∧ (t.stall s.here).itemq = []))

/-- TASK and TASK.RUN, FWAIT and LOCK (R47, R48, R175, R383, R385, R388): the record's sixteen words among the stores of the
group and the record to publish at its next boundary; the result and status of a task that has ended; a wait published
in AWAIT, at a blocking point; a free lock taken under the group's identity; a wait on the group's own task is a
DEADLOCK. -/
def Obligations.Tasks : Prop := ∀ (o : Slot) s g,
  let ea := eaScalar o g.r
  let sa := g.r.getS o.a.num
  (∀ i run x a, (i = Instr.task o ∧ run = false ∨ i = .taskRun o ∧ run = true) → Ready i s g →
    s.requestAt ea = .ok x → s.globalAcc 0 (g.r.getS o.b.num) 128 .write = .ok a → g.st < 63 →
    (∀ op ∈ g.ops, op.performed = true) →
    ∃ t g' op later direct, exec i s = .next t ∧ Retired s t g g' ∧ sameRegs g g' ∧ counted false g g' op ∧
      op.kind = .store later direct ∧ g'.tasks = g.tasks ++ [(a.va, run)] ∧
      (s.Canonical → (∀ k, k < 128 → s.ownerOf (a.loc + k) ≠ some s.here) → SameReads s t ∧
        let bytes := if a.uncached then direct else later
        holdsStore bytes a.loc 8 (fld x 63 0) ∧ holdsStore bytes (a.loc + 8) 8 (fld x 127 64) ∧
        holdsStore bytes (a.loc + 24) 8 (fld x 199 192 * 2 ^ 16 + g.r.launchId.toNat * 2 ^ 32) ∧
        holdsStore bytes (a.loc + 32) 8 (fld x 226 208) ∧ holdsStore bytes (a.loc + 40) 8 (fld x 191 128) ∧
        holdsStore bytes (a.loc + 48) 8 (2 ^ 64 - 1) ∧ holdsStore bytes (a.loc + 16) 8 0 ∧
        ∀ k, 7 ≤ k → k < 16 → holdsStore bytes (a.loc + 8 * k) 8 0)) ∧
  (∀ rec, Ready (.fwait o) s g → g.claim = none → s.homeAcc g.r.sup sa 128 128 .read = .ok rec → s.recordOk rec = true →
    g.pendingAt rec 128 = false →
    let w3 := s.wordAt rec 3
    let gives := fun (value status : Word) => logRoom g 16 →
      ∃ t g', exec (.fwait o) s = .next t ∧ Retired s t g g' ∧ g'.probing = false ∧
        g'.r = { (g.r.setDst o.dst value).setS (o.dst.num + 1) status with await := 0, pc := g.succ } ∧
        logs g g' 5 sa [.s o.dst.num value, .s (o.dst.num + 1) status]
    (w3.extractLsb' 0 3 = 3 → gives (s.wordAt rec 2) 0) ∧
    (w3.extractLsb' 0 3 = 4 → gives 0 (1 ||| ((w3.extractLsb' 8 8).setWidth 64 <<< 8))) ∧
    (w3.extractLsb' 0 3 = 1 → sa ≠ 0 → g.r.taskId = 0 → s.structLoc s.here sa 128 = some rec →
      ∃ t g', exec (.fwait o) s = .next t ∧ t.last = .held 4 ∧ t.group? s.cur = some g' ∧
        g'.r = { g.r with await := sa } ∧ g'.blocked = some (.future sa) ∧ SameMemory s t) ∧
    ((w3.extractLsb' 0 3 = 1) → sa ≠ 0 → sa = g.r.taskId → g.r.await = 0 →
      ∃ u : State, u.me.r = g.r ∧ exec (.fwait o) s = .next (u.takeException false (Trap.whole .deadlock sa)))) ∧
  (∀ a, Ready (.lock o) s g → g.claim = none → s.atomicAcc 0 ea 8 = .ok a → g.pendingAt a.loc 8 = false →
    s.wordAt a.loc 0 = 0 → logRoom g 0 → g.r.await = 0 →
    ∃ t g', exec (.lock o) s = .next t ∧ Retired s t g g' ∧ sameRegs g g' ∧ logs g g' 1 a.va [] ∧
      g'.locks = g.locks ++ [(a.va, g.r.taskId ||| 1)] ∧ t.gmem = (s.setWordAt a.loc 0 (g.r.taskId ||| 1)).gmem)

/-- DEQ, QWAIT and YWAIT (R147 to R149, R390, R391, R394): a queue's reserved entries are taken first, then its head entry
when it is filled or faulted; the entry becomes empty; DEQ answers an empty queue with status 2 where QWAIT waits; YWAIT
is satisfied when its round has passed. -/
def Obligations.QueueTaking : Prop := ∀ (o : Slot) s g,
  let ea := eaScalar o g.r
  let d := o.dst.num
  (∀ q e, s.group? s.cur = some g → queueAt ea s = .ok q → g.pendingAt q.loc (64 + 16 * (q.cap + 4)) = false →
    let st := s.wordAt e 1 &&& 3
    let empty := (s.setWordAt e 0 0).setWordAt e 1 0
    let value := if st = 3 then 0 else s.wordAt e 0
    (s.wordAt e 1).extractLsb' 2 4 = 0 →
    readsProducer e s = .ok () →
    (q.rsv = 0 → q.tail ≠ q.head → entryAt ea (q.head.toNat % q.cap) s = .ok e → 2 ≤ st.toNat →
      ∃ status, takeStep ea s = .ok (empty.setWordAt q.loc 1 (q.head + 1), .took value status) ∧ (st = 2 → status = 0)) ∧
    (∀ n, q.rsv ≠ 0 → n < 64 → q.rsv.getLsbD n = true → (∀ k, k < n → q.rsv.getLsbD k = false) →
      entryAt ea (q.cap + n) s = .ok e →
      ∃ status, takeStep ea s = .ok (empty.setWordAt q.loc 3 (q.rsv &&& ~~~(1#64 <<< n)), .took value status) ∧
        (st = 2 → status = 0))) ∧
  (∀ q, s.group? s.cur = some g → queueAt ea s = .ok q → g.pendingAt q.loc (64 + 16 * (q.cap + 4)) = false →
    q.rsv = 0 → q.tail = q.head → takeStep ea s = .ok (s, .waits 0 q.head)) ∧
  (∀ u value status, takeStep ea s = .ok (u, .took value status) → u.me = g → u.cur = s.cur → logRoom g 16 →
    (Ready (.deq o) s g → ∃ t g', exec (.deq o) s = .next t ∧ Retired s t g g' ∧ t.gmem = u.gmem ∧ t.owners = u.owners ∧
      g'.r = { (g.r.setDst o.dst value).setS (d + 1) status with pc := g.succ } ∧
      logs g g' 5 ea [.s d value, .s (d + 1) status]) ∧
    (Ready (.qwait o) s g → g.claim = none → g.r.await = 0 → ∃ t g', exec (.qwait o) s = .next t ∧ Retired s t g g' ∧
      t.gmem = u.gmem ∧ t.owners = u.owners ∧
      g'.r = { (g.r.setDst o.dst value).setS (d + 1) status with pc := g.succ } ∧
      logs g g' 5 ea [.s d value, .s (d + 1) status])) ∧
  (∀ p head, takeStep ea s = .ok (s, .waits p head) →
    (Ready (.deq o) s g → logRoom g 16 → exec (.deq o) s = .next (s.retiredAs
      { g with effects := g.effects ++ [Effect.of 5 g ea [.s d 0, .s (d + 1) 2]] } ((g.r.setDst o.dst 0).setS (d + 1) 2))) ∧
    (Ready (.qwait o) s g → p = 0 → g.claim = none → g.r.await = 0 → s.ownReachable = true →
      exec (.qwait o) s = .next (s.hold (some (.items ea head)) false))) ∧
  (Ready (.ywait o) s g → (s.yard s.myYard).bound = true → (s.yard s.myYard).launch = g.r.launchId →
    let n := (kget 0 (s.yard s.myYard).rounds s.myStall - (scalarOf o g.r o.b).setWidth 32).toNat
    exec (.ywait o) s = .next (if 1 ≤ n ∧ n ≤ 0x7FFFFFFF then (s.acquireAt s.here).retiredAs g g.r
      else s.hold none false)) ∧
  (Ready (.ywait o) s g → ((s.yard s.myYard).bound = false ∨ (s.yard s.myYard).launch ≠ g.r.launchId) →
    exec (.ywait o) s = .next (s.takeException false (Trap.whole .permission 0)))

/-- The loads of every group that waited on a home have ended without a result, and the group's next issue takes POISON for all
their lanes there, at the lowest one's address where nothing was to be taken before (R247, R248). -/
def Sys2Proof.Claim.cutOff (s u : State) (home : Nat) : Prop :=
  ∀ grp g, s.group? grp = some g →
    let waits := fun (op : Op) => op.kind = .load ∧ op.performed = false ∧ op.got = []
    let cut := fun (a : Acc) => ∃ op ∈ g.ops, waits op ∧ a ∈ op.accs ∧ homeOfLoc a.loc = home ∧ a.lane < 32
    ∃ g', u.group? grp = some g' ∧ g'.ops.length = g.ops.length ∧
      (∀ (i : Nat) op, g.ops[i]? = some op → waits op → (∃ a ∈ op.accs, homeOfLoc a.loc = home) →
        g'.ops[i]? = some { op with performed := true, result := [] }) ∧
      ((∃ a, cut a) → ∃ lanes va, g'.deny = some (.poison, lanes, va) ∧ (∀ a, cut a → lanes.getLsbD a.lane = true) ∧
        (g.deny = none → (∀ op ∈ g.ops, waits op ∧ ∀ a ∈ op.accs, a.lane < 32) →
          (∀ l, l < 32 → lanes.getLsbD l = true → ∃ a, cut a ∧ a.lane = l) ∧
          ∃ a, cut a ∧ va = a.va ∧ ∀ b, cut b → a.lane ≤ b.lane))

/-- The writes that only the owner may make (R237 to R240, R248): offers, withdrawals, a release; a claim of an unowned
panel, of several at once the lowest port's, and the acceptance of an offer; what a change of owner leaves. Resets, and the
links of the ports: a cold boot keeps the foreign memories alone, and repairs everything (the model's choices: what a port's host
set, and its errors, outlast it, log 6; nothing stays failed, log 48); a link that comes up has its host's settings, one that goes
down leaves POISON for the loads under way there, for every lane that still waited, at the group's next issue (the model's
choice, log 46), and an owner loses the panel with its port. The loader and the attestation (R242 to R245). -/
def Obligations.PortEvents : Prop := ∀ (s : State) (port : Nat), port < 4 → (s.port port).link = true →
  kwf Port.fresh s.ports = true →
  let p := s.port port
  let mine := s.own.owned = true ∧ s.own.owner.toNat = port
  (s.own.owned = false → p.busMaster = true →
    ∃ u, occurs (.ownctlClaim [port]) s u ∧ ownerChanged s u (BitVec.ofNat 2 port) true) ∧
  (s.own.owned = true ∨ p.busMaster = false → occurs (.ownctlClaim [port]) s (s.setPort port { p with clost := true })) ∧
  (∀ q, port < q → q < 4 → (s.port q).link = true → s.own.owned = false → p.busMaster = true →
    ∃ u, occurs (.ownctlClaim [q, port]) s u ∧ u.own.owned = true ∧ u.own.owner = BitVec.ofNat 2 port ∧
      (u.port q).clost = true) ∧
  (∀ h, byOwner (.ownctlHandoverOffer port h) s port true
    { s with own := { s.own with hport := BitVec.ofNat 2 h, hreq := true } }) ∧
  byOwner (.ownctlOfferWithdraw port) s port true { s with own := { s.own with hreq := false } } ∧
  (s.own.hreq = true → s.own.hport.toNat = port →
    ∃ u, occurs (.ownctlAccept port) s u ∧ ownerChanged s u (BitVec.ofNat 2 port) true) ∧
  (s.own.hreq = false ∨ s.own.hport.toNat ≠ port → occurs (.ownctlAccept port) s s) ∧
  (mine → ∃ u, occurs (.ownctlRelease port) s u ∧ ownerChanged s u s.own.owner false) ∧
  (s.gmem.wf = true → ∃ u, occurs .powerOn s u ∧ byOwner (.panelrst port) s port true u ∧
    { u with ports := [], gmem := [], poison := [], free := 0, boots := 0 } = State.reset ∧
    (∀ q, q < 4 → u.port q =
      { Port.fresh with busMaster := (s.port q).busMaster, atomics := (s.port q).atomics, bad := (s.port q).bad }) ∧
    ∀ loc, u.gmem.read loc = if homeOfLoc loc ≠ 0 ∧ loc < 2 ^ 62 then s.gmem.read loc else 0) ∧
  (∀ i ∈ [Instr.portReset port, .portLinkDown port], ∃ u, occurs i s u ∧ (u.port port).link = false ∧
    cutOff s u (port + 1)) ∧
  (mine → ∃ u, occurs (.portReset port) s u ∧ u.own.owned = false ∧ u.own.epoch = s.own.epoch + 1) ∧
  (s.loader.state = 0 ∨ s.loader.state = 3 →
    byOwner (.ldrctlGo port) s port true { s with loader := { s.loader with state := 1 } }) ∧
  (s.loader.state = 1 → ∃ u, occurs .loaderVerifyDone s u ∧
    (imageError s.loader.buffer = 0 → u.loader.state = 2 ∧ u.loader.err = 0 ∧
      u.loader.version = BitVec.ofNat 32 (numAt s.loader.buffer 4 4)) ∧
    (imageError s.loader.buffer ≠ 0 → u.loader.state = 3 ∧
      u.loader.err = BitVec.ofNat 8 (imageError s.loader.buffer) ∧ u.fwTvec = s.fwTvec)) ∧
  occurs (.attctlReq port) s { s with att := { s.att with queue := s.att.queue ++ [(port, p.nonce)] } } ∧
  (∀ q nonce rest, s.att.queue = (q, nonce) :: rest →
    (32768 ≤ s.att.served → occurs .attestationReportDone s { s with att := { s.att with queue := rest, err := 1 } }) ∧
    (s.att.served < 32768 → ∃ r : Report,
      occurs .attestationReportDone s { s with att := { s.att with
        queue := rest, port := BitVec.ofNat 2 q, report := some r, served := s.att.served + 1 } } ∧
      r.nonce = nonce ∧ r.version = s.loader.version ∧ r.owner = s.own.owner ∧ r.epoch = s.own.epoch)) ∧
  (∀ q, q < 4 → (s.port q).link = false →
    (∀ x : PortUp, x.port = q → (s.barn (portBarn q)).lost = false → occurs (.portLinkUp x) s (s.setPort q { s.port q with
      link := true, downTicks := 0, busMaster := x.busMaster, atomics := x.atomics })) ∧
    (s.own.owned = true → s.own.owner.toNat = q → 100000000 ≤ (s.port q).downTicks →
      ∃ u, occurs (.portLinkDownTimeout q) s u ∧ ownerChanged s u s.own.owner false))

/-- What the owner asks of the panel (R105, R110, R138, R140, R155, R159, R163, R167, R193, R194, R199, R208, R217, R218,
R232, R237): appends, shootdowns, the tile caches, MEMCFG, pre-emption, TFDONE, the event ring, the loft, panel memory, a
group's debug control, the counters, and registers of the management window by their offsets (a write at an offset that is not
a multiple of 8 names no register and does nothing: the model's choice, which no rule states). A shootdown is acknowledged in one
move, with no translation of the pages left in any TLB (the model's choice, log 33). What any host reads through the BARs, in any
size, and what completes as an Unsupported Request (R233, R234, R241); a write of BAR2 that lies in the BAR and reaches beyond
general DRAM writes nothing (the model's choice, log 84). -/
def Obligations.HostRequests : Prop := ∀ (s : State) (port : Nat), port < 4 → (s.port port).link = true →
  let owner := fun (i : Instr) (allowed : Bool) (t : State) => byOwner i s port allowed t
  let c := s.cfg
  let booted := s.loader.state = 2
  (∀ q block, q < 64 → booted → (s.queue q).en = true → (s.queue q).entries.length < 256 →
    ∃ lid : BitVec 32, (s.lidBusy s.nextLid = false → lid = s.nextLid) ∧
      ∀ r, r = kget AppendReply.none s.appends (port * 64 + q) →
        owner (.lqappend port q block) true
          { s.setQueue q { s.queue q with entries := (s.queue q).entries ++ [(block, lid)] } with
            nextLid := lid + 1
            appends := kset AppendReply.none s.appends (port * 64 + q) { lid := lid, res := 1, napp := r.napp + 1 } }) ∧
  (∀ x : Word, owner (.tlbshoot port x) (!c.shootBusy) { s with cfg := { c with
    shootVpn := x.extractLsb' 0 41, shootNpm := x.extractLsb' 41 16, shootAll := x.getLsbD 57, shootBusy := true } }) ∧
  (c.shootBusy = true → c.shootAll = true → s.tlbQuiet true (c.shootVpn.toNat * 65536) (c.shootNpm.toNat + 1) = true →
    kwf Stable.fresh s.stables = true →
    ∃ u, occurs .tlbshootAck s u ∧ u.cfg = { c with shootBusy := false } ∧ ∀ n, (u.stable n).tlb = []) ∧
  owner (.tmapsync port) true { s with cfg := { c with sync := true } } ∧
  (c.sync = true → kwf Stable.fresh s.stables = true →
    ∃ u, occurs .tmapsyncDone s u ∧ u.cfg = { c with sync := false } ∧ ∀ n, (u.stable n).tiles = []) ∧
  (∀ x : Word, kwf Barn.fresh s.barns = true → ∃ u,
    owner (.memcfgWrite port x) (decide booted && s.gangs.isEmpty && memcfgOk x) u ∧
    u.cfg = { c with
      kcode := x.extractLsb' 0 3, lp := x.extractLsb' 8 9, rs := x.extractLsb' 17 4, ls := x.extractLsb' 32 32 } ∧
    (x.extractLsb' 17 4 = c.rs → u.barns = s.barns) ∧ (x.extractLsb' 17 4 ≠ c.rs → ∀ n, (u.barn n).store = [])) ∧
  (∀ k lid, k < 8 → s.gangs = [] → (∀ p ∈ s.groups, p.2.blocked = none) →
    let put := fun (p : Preempt) => { s with preempt := s.preempt.set k p }
    owner (.preemptGo port k lid) true (put { launch := lid, go := true, force := decide (lid ≠ 0) && s.lidBusy lid }) ∧
    ∀ old, s.preempt[k]? = some old →
      owner (.preemptLift port k) true (put { old with go := false, force := false })) ∧
  (∀ seq, let t := fun (a : BitVec 2) => { s with cfg := { c with tfSeq := seq, tfAction := a } }
    (s.parkedAt seq = none →
      owner (.tfdoneRetry port seq) true (t 0) ∧ owner (.tfdoneDeny port seq) true (t 1) ∧
      owner (.tfdoneEnd port seq) true (t 2)) ∧
    ∀ k va lanes g, s.parkedAt seq = some (k, va, lanes) → s.group? k = some g →
      (∃ u g', owner (.tfdoneRetry port seq) true u ∧ u.group? k = some g' ∧ g'.standing = .woken ∧ g'.r = g.r ∧
        g'.deny = g.deny) ∧
      (∃ u g', owner (.tfdoneDeny port seq) true u ∧ u.group? k = some g' ∧ g'.standing = .woken ∧ g'.r = g.r ∧
        g'.deny = some (.permission, lanes, va)) ∧
      (g.r.taskId = 0 → (s.gang? (gangOf k)).isSome = true →
        ∃ u, owner (.tfdoneEnd port seq) true u ∧ (u.gang (gangOf k)).phase = .ending)) ∧
  (∀ x : Word, s.evWaiting = [] →
    owner (.evptrHeadWrite port x) true { s with evHead := x.extractLsb' 8 8, evLost := s.evLost && !x.getLsbD 16 }) ∧
  (∀ off b, off / 2 ^ 30 = c.loftwin.toNat → off < c.ls.toNat * 4096 → s.loft.wf = true →
    ∃ u, owner (.loftWrite port off [b]) (!s.loftBusy off 1) u ∧ u.loft.read off = b ∧
      ∀ a, a ≠ off → u.loft.read a = s.loft.read a) ∧
  (∀ pa bs, pa + bs.length ≤ 2 ^ 43 →
    (pa + bs.length ≤ s.dramLimit → owner (.hostBar2Write port (.bar2 pa) bs) true (s.writeCoherent pa bs)) ∧
    (s.dramLimit < pa + bs.length → owner (.hostBar2Write port (.bar2 pa) bs) true s)) ∧
  (let answered := fun (t : State) (r : Option (List Byte)) =>
      t.setPort port { t.port port with reads := (t.port port).reads ++ [r] }
   (∀ bs, occurs (.hostBar2Write port .atomicOp bs) s (answered s none)) ∧
   (∀ n, occurs (.hostBar2Read port .outside n) s (answered s none)) ∧
   (∀ pa bs, 2 ^ 43 < pa + bs.length → occurs (.hostBar2Write port (.bar2 pa) bs) s (answered s none)) ∧
   (∀ what word off n, (what = HostRead.bar0 off ∧ word = s.readBar0 port ∨ what = .bar4 off ∧ word = s.readBar4 port) →
     (∀ bs : List Byte, bs.length = n →
       (∀ i, i < n → ∃ w, word ((off + i) / 8 * 8) = some w ∧ bs[i]? = some (w.extractLsb' (8 * ((off + i) % 8)) 8)) →
       occurs (.hostBar2Read port what n) s (answered s (some bs))) ∧
     ((∃ i, i < n ∧ word ((off + i) / 8 * 8) = none) → occurs (.hostBar2Read port what n) s (answered s none))) ∧
   (∀ pa n, 2 ^ 43 < pa + n → occurs (.hostBar2Read port (.bar2 pa) n) s (answered s none)) ∧
   (∀ pa n, pa + n ≤ 2 ^ 43 → kwf Port.fresh s.ports = true →
     ∃ u bs, occurs (.hostBar2Read port (.bar2 pa) n) s u ∧ (u.port port).reads = (s.port port).reads ++ [some bs] ∧
       (s.Canonical → SameReads s u) ∧ bs.length = n ∧
       ∀ i, i < n → pa + i < s.dramLimit → s.poisonAt (pa + i) = false → bs[i]? = some (s.coherent (pa + i)))) ∧
  (let d := s.dbgctl
   let is := fun (i : Instr) (d' : DbgCtl) => owner i true (s.setDbg c.dbgStall.toNat c.dbgSlot.toNat d')
   (d.halted = false → is (.dbgctlAttach port) { d with att := true } ∧
     (d.att = true → is (.dbgctlHaltRequest port) { d with hreq := true })) ∧
   (d.att = true → d.halted = true → d.atBrk = false →
     is (.dbgctlStep port) { d with step := true, halted := false } ∧
     is (.dbgctlRun port) { d with run := true, halted := false } ∧
     is (.dbgctlDetach port) { d with att := false, run := false, halted := false }) ∧
   (∀ k g, d.att = true → d.halted = true → d.atBrk = true → s.dbgGroup? = some k → s.group? k = some g →
     ∃ u, owner (.dbgctlRun port) true u ∧ u.group? k = some { g with r := { g.r with pc := g.succ }, ric := g.ric + 1 })) ∧
  (∀ n, n < 288 →
    owner (.ceCounterClear port .sram n) true (s.setStable n { s.stable n with cesram := 0 }) ∧
    owner (.ceCounterClear port .fetch n) true (s.setStable n { s.stable n with cefetch := 0 }) ∧
    owner (.ceCounterClear port .l2 n) true (s.setBarn n { s.barn n with cel2 := 0 }) ∧
    owner (.ceCounterClear port .dram n) true (s.setBarn n { s.barn n with cedram := 0 }) ∧
    owner (.ceCounterClear port .link n) true (s.setBarn n { s.barn n with celink := 0 })) ∧
  (∀ x : Word,
    owner (.registerWrite port 0x1000 x) (decide booted && s.gangs.isEmpty)
      { s with cfg := { c with ptEn := x.getLsbD 0, ptRoot := x.extractLsb' 19 33 } } ∧
    owner (.registerWrite port 0x1010 x) s.gangs.isEmpty
      { s with cfg := { c with tmapBase := x &&& 0x000FFFFFFFFFFFF8#64 } } ∧
    owner (.registerWrite port 0x1030 x) true { s with cfg := { c with starve := x.extractLsb' 0 16 } } ∧
    owner (.registerWrite port 0x1048 x) true { s with cfg := { c with loftwin := x } } ∧
    owner (.registerWrite port 0x1100 x) true
      { s with cfg := { c with dbgStall := x.extractLsb' 0 17, dbgSlot := x.extractLsb' 17 4 } } ∧
    (∀ q, q < 64 → owner (.registerWrite port (0x2000 + 32 * q) x) (decide booted && (s.queue q).entries.isEmpty)
      (s.setQueue q { s.queue q with prio := x.extractLsb' 0 2, en := x.getLsbD 2, quantum := x.extractLsb' 8 24 })) ∧
    (∀ q, q < 64 → owner (.registerWrite port (0x2800 + 8 * q) x) (s.loftEntryFree q)
      { s with loftmap := kset 0 s.loftmap q x }) ∧
    ∀ off, off % 8 ≠ 0 → exec (.registerWrite port off x) s = .next { s with last := .idle })

/-- The losses (R102, R103, R185, R194, R221, R222, R227 to R231, R246, R247): a lost stall's owned words, lines, scratchpad
and queues are gone, a spare takes its place or it is absent, and its gangs wait; a lost stable or barn, a failed die link;
corrected and uncorrectable errors at each site: what the ring rebuilds stays, and what it cannot is poisoned, a clean L1
sector or slice line is discarded; panel links and the requests that come over them, and what a peer writes in its own memory.
The model's choices: loads under way over a failed link leave POISON for the group's next issue (log 46); one event stands for
each way in which a stall or a stable misses its checks (log 48); a mended stable keeps its mask of failed stalls (log 73). -/
def Obligations.FailureEvents : Prop := ∀ s : State,
  (∀ t, s.stallPresent t = true → kwf Stall.fresh s.stalls = true → kwf Stable.fresh s.stables = true →
    kwf 0 s.owners = true →
    ∃ u, (∀ i ∈ [Instr.stallErrorLoss t, .stallCheckMiss t, .eccUncorrectable (.stall t)], occurs i s u) ∧
      (u.stall t).scratch = [] ∧ (u.stall t).l1 = [] ∧ (u.stall t).locks = [] ∧ (u.stall t).cartq = [] ∧
      (u.stall t).planeq = [] ∧ (u.stall t).itemq = [] ∧ (∀ loc, u.ownerOf loc ≠ some t) ∧
      (u.stable (stableOf t)).failed = (s.stable (stableOf t)).failed ||| (1#384 <<< (s.spare t).phys.toNat) ∧
      (((u.spare t).repl = true ∧ (u.spare t).absent = false ∧
          (u.stable (stableOf t)).failed.getLsbD (u.spare t).phys.toNat = false) ∨ (u.spare t).absent = true)) ∧
  (∀ n, n < 288 → (s.stable n).lost = false →
    let v := s.loseStable n
    occurs (.stableCheckMiss n) s (v.settleFabric 576) ∧ (v.stable n).lost = true ∧ (v.stable n).jobs = [] ∧
    (v.stable n).tlb = [] ∧ (v.stable n).tiles = [] ∧ (v.strandedDies = [] → v.settleFabric 576 = v)) ∧
  (∀ t h, s.firstToHost t = true → s.hostFor t = some h → kwf Stable.fresh s.stables = true →
    ∃ u, occurs (.stallHosting t) s u ∧ (u.spare t).hosted = true ∧
      (u.spare t).hostStable = BitVec.ofNat 9 (stableOf h) ∧ (u.spare t).hostPhys = (s.spare h).phys ∧ u.hostOf t = h) ∧
  (∀ b, b < 288 →
    ((s.barn b).lost = false → ∃ u, occurs (.barnLoss b) s u ∧ occurs (.eccUncorrectable (.barn b)) s u ∧
      (u.barn b).lost = true) ∧
    ((s.barn b).lost = true → (s.barn b).moved = false → (s.barn b).dead = false → 64 ≤ s.cfg.lp.toNat →
      s.lostInRing b = [] → ∃ u, occurs (.barnMoveComplete b) s u ∧ (u.barn b).moved = true ∧ (u.barn b).lost = true) ∧
    ∀ d, d < 4 → (stepDir (barnPos b) d).isSome = true → s.deadLinks.contains (b, d) = false →
      ∃ u, occurs (.dieLinkFailure b d) s u ∧ (b, d) ∈ u.deadLinks) ∧
  (∀ n, n < 288 →
    let up := fun (x : BitVec 32) => if x = 0xFFFFFFFF#32 then x else x + 1
    occurs (.eccCorrected .sram n) s (s.setStable n { s.stable n with cesram := up (s.stable n).cesram }) ∧
    occurs (.eccCorrected .fetch n) s (s.setStable n { s.stable n with cefetch := up (s.stable n).cefetch }) ∧
    occurs (.eccCorrected .l2 n) s (s.setBarn n { s.barn n with cel2 := up (s.barn n).cel2 }) ∧
    occurs (.eccCorrected .dram n) s (s.setBarn n { s.barn n with cedram := up (s.barn n).cedram }) ∧
    occurs (.eccCorrected .link n) s (s.setBarn n { s.barn n with celink := up (s.barn n).celink })) ∧
  (∀ pa, pa < s.dramLimit →
    let b := backingBarn pa
    ((s.barn b).moved = false → s.ringWhole b = true → occurs (.eccUncorrectable (.dram pa)) s s) ∧
    ((s.barn b).moved = true ∨ s.ringWhole b = false → kwf false s.poison = true →
      ∃ u, occurs (.eccUncorrectable (.dram pa)) s u ∧ u.gmem = s.gmem ∧
        ∀ i, i < 64 → u.poisoned (pa / 64 * 64 + i) = true)) ∧
  (∀ b off, b < 288 → s.ringWhole b = true →
    (off < s.cfg.lp.toNat * 2 ^ 25 → occurs (.eccUncorrectable (.loft b off)) s s) ∧
    (off < s.storeBytes → occurs (.eccUncorrectable (.shadow b off)) s s)) ∧
  (∀ t loft tag sector, s.stallPresent t = true → sector < 2 → kwf Stall.fresh s.stalls = true →
    ∃ u, occurs (.eccUncorrectable (.l1 t loft tag sector)) s u ∧ u.gmem = s.gmem ∧ u.owners = s.owners ∧
      ∀ l, (u.stall t).line? loft tag = some l → ∀ w, w < 16 → w / 8 = sector → l.valid.getLsbD w = false) ∧
  (∀ b k loft tag, b < 288 → (s.barn b).lost = false → k < 8 → kwf Barn.fresh s.barns = true →
    kwf [] (s.barn b).l2 = true → ∃ u, occurs (.eccUncorrectable (.l2 b k loft tag)) s u ∧
      ({ loft := loft, tag := tag } : HomeLine) ∉ kget [] (u.barn b).l2 k) ∧
  (∀ gang x, s.gang? gang = some x →
    let whole := s.ringWhole (partnerBarn (stableOf x.stall))
    (whole = true → occurs (.eccUncorrectable (.record gang)) s s) ∧
    (whole = false → ∃ u, occurs (.eccUncorrectable (.record gang)) s u ∧ (u.gang gang).recordBad = true)) ∧
  (∀ l, l < 48 → kwf PLink.fresh s.links = true →
    let k := s.link l
    (k.up = true → ∃ u, occurs (.panelLinkFailure l) s u ∧ u.link l = { k with up := false } ∧ cutOff s u (0x10 + l)) ∧
    (∀ pa b, pa < 2 ^ 51 → s.gmem.wf = true →
      ∃ u, occurs (.panelLinkInbound l (.own pa [b])) s u ∧ u.stalls = s.stalls ∧ u.owners = s.owners ∧
        ∀ loc, u.gmem.read loc = if loc = foreignLoc (0x10 + l) pa then b else s.gmem.read loc) ∧
    (∀ peer : Peer, peer.link < 48 → k.en = true → (s.barn (linkBarn l)).lost = false →
      occurs (.panelLinkTrained l peer) s (s.setLink l { k with
        up := true, peer := BitVec.ofNat 6 peer.link, peerInb := peer.inb, peerBase := peer.base, peerLen := peer.len })) ∧
    (k.up = true →
      let answers := fun (req : Inbound) (t : State) (r : Option (List Byte)) =>
        occurs (.panelLinkInbound l req) s (t.setLink l { t.link l with replies := (t.link l).replies ++ [r] })
      (∀ req, (∀ pa bs, req ≠ .own pa bs) → s.inboundOk k (inboundSpan req).1 (inboundSpan req).2 = false →
        answers req s none) ∧
      (∀ pa n, s.inboundOk k pa n = true → ∃ t : State, t.link l = k ∧ (s.Canonical → SameReads s t) ∧
        answers (.read pa n) t
          (if s.anyPoison pa n = true then none else some ((List.range n).map fun i => s.coherent (pa + i)))) ∧
      (∀ pa bs, s.inboundOk k pa bs.length = true → answers (.write pa bs) (s.writeCoherent pa bs) (some [])) ∧
      (∀ pa v c, s.inboundOk k pa 8 = true → s.anyPoison pa 8 = false → pa % 8 = 0 →
        let m := s.coherentN pa 8
        answers (.atomic 0 .n64 pa v c) (s.writeCoherentN pa 8 ((BitVec.ofNat 64 m + v).toNat)) (some (leBytes 8 m)))))

/-- Time (R19, R191 to R193, R240): PTIME rises by 1 with each tick, and nothing but the clocks' own state changes; the first
synchronisation of a stable, its restart, and the steering of its offset by 1 towards PTIME, upwards once in a tick and
downwards once in 1,024 ticks; a stall's cycle raises CYC by 1 and each enabled counter by its event's count in the cycle, but
for one just written. The model's choices: LCNT counts from a reset release, which is a free value before a restart names it
(log 56), and has no drift against PTIME, so that LOFF is kept as GTIME's lead over PTIME, and a lowering takes effect with the
next tick (log 74); where the counts of events come from (log 75). -/
def Obligations.TimeEvents : Prop := ∀ s : State,
  (∃ u, occurs .panelTimeTick s u ∧ u.ptime = s.ptime + 1 ∧
    { u with ptime := s.ptime, stables := s.stables, ports := s.ports } = s ∧
    ∀ n, kwf Stable.fresh s.stables = true → (s.stable n).lowering = true → u.stable n =
      { s.stable n with ahead := (s.stable n).ahead - 1, sinceLowered := 0, lowering := false, raised := false }) ∧
  (∀ n release err, n < 288 → (s.stable n).lost = false →
    let x := s.stable n
    (x.synced = false → -2 ≤ err → err ≤ 2 →
      occurs (.timeFirstSync n release err) s (s.setStable n { x with ahead := BitVec.ofInt 64 err, synced := true })) ∧
    (x.synced = true → (∀ p ∈ s.gangs, stableOf (s.runsOn p.1) ≠ n) → release.toNat ≤ s.ptime.toNat →
      kwf Stable.fresh s.stables = true →
      ∃ u, occurs (.timeFirstSync n release err) s u ∧ u = s.setStable n { x with release := some release } ∧
        u.lcnt n = s.ptime - release ∧ u.gtimeOf n = s.gtimeOf n)) ∧
  (∀ n, n < 288 → (s.stable n).synced = true → (s.stable n).lost = false → (s.stable n).lowering = false →
    let x := s.stable n
    (x.ahead.toInt < 0 → x.raised = false →
      occurs (.loffAdjust n) s (s.setStable n { x with ahead := x.ahead + 1, raised := true })) ∧
    (0 < x.ahead.toInt → 1024 ≤ x.sinceLowered →
      occurs (.loffAdjust n) s (s.setStable n { x with lowering := true }))) ∧
  (∀ t counts, t < 103680 → (s.stall t).lost = false → kwf Stall.fresh s.stalls = true →
    ∃ u, occurs (.stallCycle t counts) s u ∧ u.ptime = s.ptime ∧ (u.stall t).cyc = (s.stall t).cyc + 1 ∧
      (u.stall t).pm.length = (s.stall t).pm.length ∧ (u.stall t).tally = [] ∧
      ∀ (i : Nat) x, (s.stall t).pm[i]? = some x →
        let n := match x.event.toNat with
          | 3 => if ((s.stall t).runKey.toList ++ (s.stall t).ages).any s.interlockedAt then 1 else min 1 (counts.getD 3 0)
          | 4 => kget 0 (s.stall t).tally 4 + counts.getD 4 0
          | 13 => if (s.standing t .slot).isEmpty then 0 else 1
          | e => kget 0 (s.stall t).tally e
        (u.stall t).pm[i]? = some (if x.written then { x with written := false }
          else if x.en ∧ x.event ≠ 0
          then { x with count := x.count + BitVec.ofNat 48 n, ovf := x.ovf || decide (2 ^ 48 ≤ x.count.toNat + n) } else x))

/-- From a launch queue to the stall and back (R31, R32, R141, R152, R196, R197, R199 to R204, R211, R223, R225): a block
taken or refused, a gang placed with its groups in their start states and its stall's unowned words gone (R112, R127), the
starvation guard, a withdrawal whose answer goes to the gang's stall as a commit of its mailbox and its count (the model's
choice, log 43), a gang's retirement with its charge, of cycles that the event gives (the model's choice, log 52), and its DONEA
add, a gang imaged out placed again, and a gang restored. -/
def Obligations.LaunchEvents : Prop := ∀ s : State,
  (∀ q block lid rest, (s.queue q).entries = (block, lid) :: rest → s.launch? lid = none →
    (∀ l, s.readLaunch q block = some l →
      occurs (.distributorTakeBlock q) s { s with launches := kinsert s.launches lid.toNat l }) ∧
    (s.readLaunch q block = none → s.evCount < 255 →
      ∃ u, occurs (.distributorTakeBlock q) s u ∧ (u.queue q).entries = rest ∧ (u.queue q).rej = true ∧
        kget Event.none u.evRing s.evTail.toNat =
          { Event.none with kind := 4, launch := lid, addr := block, seq := s.evSeq })) ∧
  (∀ s' q t lid l base, s.raiseGuards.decide [0, 1, 2, 3] = (s', some (q, t)) → s'.headLaunch q = some (lid, l) →
    l.groupCount ≤ 16 → s'.freeBase t l.scrSize = some base →
    ∃ u x, occurs .gangPlacement s u ∧ u.lastStable = stableOf t ∧ u.gang? (gangKey lid l.next) = some x ∧
      x.stall = t ∧ x.scrbase = base ∧ x.scrsize = l.scrSize ∧ x.tags = 0 ∧ x.phase = .running ∧ x.placedAt = s.ptime ∧
      (kwf Stall.fresh s.stalls = true → ∀ loc, u.heldWord t loc ≠ .unowned) ∧
      ∀ n stage role, (n, stage, role) ∈ l.allGroups →
        ∃ g, u.group? (groupKey (gangKey lid l.next) n) = some g ∧ g.standing = .slot ∧ g.stage = stage ∧
          g.vbudget = role.vbudget ∧ g.ric = 0 ∧ g.transferFrom = some 0 ∧
          g.r = { Regs.zero.setS 1 l.argp with pc := role.entry, launchId := lid, tvec := s.fwTvec }) ∧
  (∀ q lid l t, s.headLaunch q = some (lid, l) → l.stuckSince = some t → s.cfg.starve ≠ 0 → s.eligible q = true →
    s.unguarded q = true → q ∉ s.starving → s.cfg.starve.toNat * 1024 < (s.ptime - t).toNat →
    occurs (.starvationLimit q) s { s with starving := q :: s.starving }) ∧
  (∀ r rest, s.fetchReqs = r :: rest →
    (s.partDead (r.gang, .fetchw r.off) = true → occurs .fetchwServe s { s with fetchReqs := rest }) ∧
    (∀ x l, s.partDead (r.gang, .fetchw r.off) = false → s.gang? r.gang = some x → s.launch? (lidOf r.gang) = some l →
      kwf Stall.fresh s.stalls = true →
      let more := l.persist = true ∧ l.next < l.gangs
      let at' := s.runsOn r.gang
      let box := leBytes 32 (if l.persist = true ∧ l.next < l.gangs
        then l.next % l.gx + l.next / l.gx % l.gy * 2 ^ 16 + l.next / l.gx / l.gy * 2 ^ 32 + l.next * 2 ^ 64 else 2 ^ 63)
      ∃ u x', occurs .fetchwServe s u ∧ u.fetchReqs = rest ∧ u.gang? r.gang = some x' ∧ SameMemory s u ∧
        (more → x'.withdrawn = x.withdrawn + 1) ∧ (¬more → x'.withdrawn = x.withdrawn) ∧
        (u.stall at').commits = (s.stall at').commits ++ [{ parts :=
          [(r.gang, .mailbox (x.scrbase + r.off + 32) box), (r.gang, .count x.stall (x.scrbase + r.off) 32)] }])) ∧
  (∀ gang cycles, s.gangDone gang = true →
    let e := if (s.gang gang).phase = .ending then (s.linkWalks gang).endGroups gang else s
    let stretch := if (s.gang gang).phase = .imaged then 0 else cycles
    let x := e.gang gang
    let l := e.launch (lidOf gang)
    ∃ u, occurs (.gangRetire gang cycles) s u ∧ (l.next < l.gangs → u.launch? (lidOf gang) = e.launch? (lidOf gang)) ∧
      (∀ k, gangOf k = gang → k ∉ kkeys u.groups) ∧ ((kkeys e.gangs).Pairwise (· < ·) → u.gang? gang = none) ∧
      ((e.queue l.queue).entries ≠ [] → kwf LaunchQueue.fresh e.lq = true → (u.queue l.queue).deficit =
        max (-2 ^ 63) (min (2 ^ 63 - 1)
          ((e.queue l.queue).deficit - Int.ofNat ((((s.gang gang).cycles + stretch) * x.slotsMax + 15) / 16)))) ∧
      (∀ loc, l.donea ≠ 0 → e.panelPhys l.donea 8 .write = .ok loc → e.homePoison loc 8 = false →
        u.gmem = (e.writeCoherentN loc 8 (e.wordAt loc 0 + BitVec.ofNat 64 (1 + x.withdrawn)).toNat).gmem)) ∧
  (∀ gang m, s.canReplace gang = true → (s.gang gang).allocImage = some m → m.wf = true → s.Canonical →
    let x := s.gang gang
    ∃ u x', occurs (.gangReplacement gang) s u ∧ u.gang? gang = some x' ∧
      x'.phase = (if s.replaysStill gang = true then .replay else .running) ∧ x'.allocImage = none ∧
      x'.scrbase = x.scrbase ∧ x'.placedAt = s.ptime ∧
      ∀ off, off < x.scrsize → (u.stall (s.runsOn gang)).scratch.read (x.scrbase + off) = m.read off) ∧
  (∀ gang x, s.gang? gang = some x → x.phase = .restoring → s.firstToRestore (s.runsOn gang) gang = true →
    s.recordsDead gang = false → s.canRestore (s.runsOn gang) gang = true → s.redos gang = [] →
    ∃ u x', occurs (.gangRestore gang) s u ∧ u.gang? gang = some x' ∧ (x'.phase = .replay ∨ x'.phase = .running) ∧
      ∀ k g, k ∈ s.restartGroups gang → s.group? k = some g →
        let r := match g.lastSection with | some y => y.regs | none => g.start
        ∃ g', u.group? k = some g' ∧ g'.standing = .slot ∧ g'.ric = BitVec.ofNat 64 g.baseRic ∧ g'.ops = [] ∧
          { g'.r with batchDone := r.batchDone } = { r with serial := false })

/-- The work of a stall's slots and items (R33, R39, R142, R205, R384): an issue age rotated, items moved into bins and out
of the spill area, a bin closed by time, a bin or a task made into a group with its start state. -/
def Obligations.SlotEvents : Prop := ∀ s : State,
  (∀ grp g, s.group? grp = some g → 64 ≤ g.streak → kwf Stall.fresh s.stalls = true →
    let t := s.runsOn (gangOf grp)
    ∃ u, occurs (.issueAgeRotate grp) s u ∧ u.group? grp = some { g with streak := 0 } ∧
      (u.stall t).ages = ((s.stall t).ages.filter (· != grp)) ++ [grp]) ∧
  (∀ t it rest n, (s.stall t).itemq = it :: rest → (s.stall t).binFor it = some n →
    let st := s.stall t
    let old := (kget Bin.empty st.bins n).items
    let v := s.setStall t { st with
      itemq := rest
      bins := kset Bin.empty st.bins n { gang := it.gang, stage := it.stage, pc := it.pc, items := old ++ [it],
                                         ready := old.length + 1 = 32 } }
    (s.noGroup it.gang = false → occurs (.packingMove t) s v) ∧
    (s.noGroup it.gang = true → s.runsOn it.gang = t → kwf Stall.fresh s.stalls = true → kwf Bin.empty st.bins = true →
      ∃ u, occurs (.packingMove t) s u ∧ kget Bin.empty (u.stall t).bins n =
        { kget Bin.empty (v.stall t).bins n with ready := true })) ∧
  (∀ t it, oldestItem (s.spilled t) = some it → s.recordsDead it.gang = false → (s.stall t).lost = false →
    (s.stall t).itemq.length < 256 →
    occurs (.spillMove t) s ((s.modStall (s.gang it.gang).stall fun st => { st with spill := st.spill.erase it }).modStall t
      fun st => { st with itemq := st.itemq ++ [it] })) ∧
  (∀ t n, let b := kget Bin.empty (s.stall t).bins n
    b.items ≠ [] → b.ready = false →
    occurs (.binTimeout t n) s (s.setStall t { s.stall t with
      bins := kset Bin.empty (s.stall t).bins n { b with ready := true } })) ∧
  (∀ t n b k role, (s.stall t).bins.find? (fun p => s.binStarts t p.2) = some (n, b) → s.freeNumber b.gang = some k →
    s.role? b.gang b.stage = some role → b.items.length ≤ 32 → kwf Stall.fresh s.stalls = true →
    kwf Bin.empty (s.stall t).bins = true →
    let lid := lidOf b.gang
    ∃ u g, occurs (.binGroupStart t) s u ∧ kget Bin.empty (u.stall t).bins n = Bin.empty ∧
      u.group? (groupKey b.gang k) = some g ∧ g.standing = .slot ∧ g.stage = b.stage ∧ g.vbudget = role.vbudget ∧
      g.r.pc = b.pc ∧ g.r.sup = false ∧ g.r.getS 1 = (s.launch lid).argp ∧ g.r.launchId = lid ∧
      (∀ i, i < 32 → g.r.exm.getLsbD i = decide (i < b.items.length)) ∧
      ∀ (i : Nat) it, b.items[i]? = some it → g.r.getVV 0 i = it.payload) ∧
  (∀ gang x q n role rec, s.gang? gang = some x →
    (s.liveRequests gang).find? (fun q => s.requestStarts gang q) = some q → s.freeNumber gang = some n →
    s.role? gang q.stage = some role → s.structLoc (s.runsOn gang) q.task 128 = some rec →
    ∃ u g, occurs (.taskRunStart gang) s u ∧ u.group? (groupKey gang n) = some g ∧ g.standing = .slot ∧
      g.vbudget = role.vbudget ∧
      g.r = { Regs.zero.setS 1 (s.wordAt rec 1) with
        pc := s.wordAt rec 0, taskId := q.task, launchId := (s.wordAt rec 3).extractLsb' 32 32, tvec := s.fwTvec })

/-- Acceptance and credit (R42, R45, R46, R142, R152, R178, R181, R224, R386): the section is complete at the present time,
the group's deliveries go to the item queue, the distributor and the receiving stalls, and it goes on; a first commit that
waits for nothing takes effect and is logged (commits one by one in order, log 43); parking and waking (R180, R204, R207, R210);
GBAR's instance (R377) and a yard round (R393). -/
def Obligations.GangEvents : Prop := ∀ s : State, kwf Stall.fresh s.stalls = true →
  (∀ grp g next, s.group? grp = some g → g.stage42 = .sectionSent next → (∀ task, next ≠ .adopt task) → g.tasks = [] →
    ∃ u g', occurs (.sectionAccept grp) s u ∧ u.group? grp = some g' ∧ g'.r = g.r ∧ g'.ric = g.ric ∧ g'.deliveries = [] ∧
      g'.heldReply = none ∧ (next = .issue → g'.stage42 = .none) ∧
      (next = .gbar → g'.stage42 = .gbar ∧ g'.gbars = g.gbars + 1) ∧
      (∀ sec rest, g.sections = sec :: rest → g'.sections = { sec with done := true, time := s.ptime } :: rest) ∧
      SameMemory s u ∧
      (∀ d off, g.deliveries = [d] → d.parts = [.fetchw off] →
        u.fetchReqs = s.fetchReqs ++ [{ gang := gangOf grp, off := off }]) ∧
      (∀ d t off bs, g.deliveries = [d] → d.parts = [.bytes t off bs] → (u.stall (s.hostOf t)).commits =
        (s.stall (s.hostOf t)).commits ++ [{ parts := d.bound.zip d.parts }]) ∧
      (∀ d pc payload stage, let t := s.runsOn (gangOf grp)
        let own := (s.gang (gangOf grp)).stall
        let it : Item := { pc := pc, payload := payload, gang := gangOf grp, stage := stage, seq := s.nextItem }
        g.deliveries = [d] → d.parts = [.item pc payload stage] → u.nextItem = s.nextItem + 1 ∧
        if (s.stall t).itemq.length < 256 ∧ s.spilled t = [] then (u.stall t).itemq = (s.stall t).itemq ++ [it]
        else (u.stall own).spill = (s.stall own).spill ++ [it])) ∧
  (∀ grp g task rec old, s.group? grp = some g → g.stage42 = .sectionSent (.adopt task) → g.deliveries = [] → g.tasks = [] →
    g.claim = some (task, 0, old) → s.structLoc (s.runsOn (gangOf grp)) task 128 = some rec →
    ∃ u g', occurs (.sectionAccept grp) s u ∧ u.group? grp = some g' ∧ g'.stage42 = .none ∧
      g'.frames = { regs := g.r, batches := g.batches } :: g.frames ∧
      g'.r = { Regs.zero.setS 1 (s.wordAt rec 1) with
        pc := s.wordAt rec 0, taskId := task, launchId := (s.wordAt rec 3).extractLsb' 32 32
        depth := BitVec.ofNat 3 (g.r.depth.toNat + 1), tvec := s.fwTvec }) ∧
  (∀ t c rest p x, (s.stall t).commits = c :: rest → c.parts = [p] → s.partWaits p = false → s.gang? p.1 = some x →
    x.phase ≠ .ending → x.allocImage = none → s.Canonical →
    let at' := s.runsOn p.1
    ∃ u, occurs (.creditCommit t) s u ∧ (u.stall t).commits = rest ∧
      (∀ y off bs, p.2 = .bytes y off bs ∨ p.2 = .mailbox off bs → x.scrbase ≤ off →
        (u.stall at').scratch.readN off bs.length = bs ∧
        (∀ a, (a < off ∨ off + bs.length ≤ a) → (u.stall at').scratch.read a = (s.stall at').scratch.read a) ∧
        ∃ x' e, u.gang? p.1 = some x' ∧ x'.intake = x.intake ++ [e] ∧ e.parcel = p.2 ∧ e.time = s.ptime) ∧
      (∀ y off n, p.2 = .count y off n → x.scrbase ≤ off → ∀ a,
        (u.stall at').scratch.read a = ((s.updateObject at' off 0 n).stall at').scratch.read a)) ∧
  (∀ t c rest, (s.stall t).commits = c :: rest → c.parts.all s.partDead = true →
    occurs (.creditCommit t) s (s.modStall t fun st => { st with commits := st.commits.eraseIdx 0 })) ∧
  (∀ grp g w, s.group? grp = some g → isCallable grp = false →
    (g.standing = .slot → g.blocked = some w → g.probing = false → s.isHalted grp = false →
      s.recordsFit (s.afterPark grp w) (gangOf grp) = true →
      ∃ u g', occurs (.groupPark grp) s u ∧ u.group? grp = some g' ∧ g'.standing = .parked w ∧ g'.r = g.r ∧
        grp ∉ (u.stall (s.runsOn (gangOf grp))).ages) ∧
    (g.standing = .parked w → (s.gang (gangOf grp)).holds = true → s.preempted (lidOf (gangOf grp)) = false →
      ({ s with cur := grp } : State).wakeHolds w = true → s.recordsDead (gangOf grp) = false → g.r.taskId = 0 →
      ∃ u g', occurs (.groupWake grp) s u ∧ u.group? grp = some g' ∧ (g'.standing = .woken ∨ g'.standing = .slot) ∧
        g'.r = g.r) ∧
    (g.standing = .woken → s.canResume grp = true → s.recordsDead (gangOf grp) = false → g.r.taskId = 0 →
      ∃ u g', occurs (.groupWake grp) s u ∧ u.group? grp = some g' ∧ g'.standing = .slot ∧ g'.r = g.r ∧
        grp ∈ (u.stall (s.runsOn (gangOf grp))).ages ∧ grp ∉ (u.stall (s.runsOn (gangOf grp))).wakes)) ∧
  (∀ gang x, s.gang? gang = some x → s.gbarGroups gang ≠ [] →
    (∀ k ∈ s.gbarGroups gang, (s.group k).stage42 = .gbar ∧ (s.group k).gbars = x.gbarDone + 1) →
    s.recordsFit (s.afterGbar gang) gang = true →
    ∃ u x', occurs (.gbarComplete gang) s u ∧ u.gang? gang = some x' ∧ x'.gbarDone = x.gbarDone + 1 ∧
      x'.receiveImage = s.receiveBytes gang ∧ u.gmem = s.gmem ∧
      ∀ k g, k ∈ s.gbarGroups gang → s.group? k = some g → u.group? k = some { g with stage42 := .none }) ∧
  (∀ ctx, s.yardArrived (s.yard ctx) = true → kwf 0 (s.yard ctx).masks = true → kwf 0 (s.yard ctx).rounds = true →
    kwf Yard.free s.yards = true →
    ∃ u, occurs (.yardRoundRelease ctx) s u ∧ (u.yard ctx).arrived = [] ∧
      ∀ t, kget 0 (u.yard ctx).rounds t =
        kget 0 (s.yard ctx).rounds t + if (s.yard ctx).takesPart t then 1 else 0)

/-- The memory's own events (R108, R118, R121 to R126, R187, R252, R285): the word of a store registered, or both words of an
aligned store of 8 bytes together, an unowned word gone from an L1, an acknowledgement, a zero-length read, a line entered in
the line store. -/
def Obligations.MemoryEvents : Prop := ∀ s : State, kwf Stall.fresh s.stalls = true →
  (∀ t w grp g idx op p q, s.nextGrant t w = some (grp, idx, op) → s.group? grp = some g → op.kind = .store p q →
    kwf 0 s.owners = true → s.gmem.wf = true →
    let ws := if op.accs.any (fun a => a.bytes = 8 && a.loc / 8 = w / 2) then [w / 2 * 2, w / 2 * 2 + 1] else [w]
    let mine := fun (c : Host.Cell) => decide (c.1 / 4 ∈ ws)
    let owned := ws.filter fun v => p.any fun c => c.1 / 4 = v
    ∃ u g', occurs (.homeRegistration t w) s u ∧ u.group? grp = some g' ∧ g'.r = g.r ∧ g'.ld = g.ld ∧ g'.st = g.st ∧
      g'.ops = g.ops.set idx { op with kind := .store (p.filter fun c => !mine c) (q.filter fun c => !mine c) } ∧
      g'.wrote = g.wrote ++ owned ∧
      (∀ v, q.filter mine = [] → owned.getLast? = some v → u.ownerOf (4 * v) = some t) ∧
      (∀ c, p.filter mine = [c] → q.filter mine = [] → homeOfLoc c.1 ≠ 0x1FF → u.coherent c.1 = c.2) ∧
      (∀ c, p.filter mine = [] → q.filter mine = [c] → u.gmem.read c.1 = c.2)) ∧
  (∀ t w l, (s.stall t).line? false (w / 16) = some l → l.valid.getLsbD (w % 16) = true →
    ∃ u, occurs (.l1WordExpiry t w) s u ∧ u.gmem = s.gmem ∧ u.owners = s.owners ∧
      ∀ l', (u.stall t).line? false (w / 16) = some l' → l'.valid.getLsbD (w % 16) = false) ∧
  (∀ grp g idx op, s.group? grp = some g → g.ops[idx]? = some op → op.countsLd = false →
    (op.kind = .store [] [] ∨ op.kind = .taken) → op.result = [] →
    ∃ u g', occurs (.storeAck grp idx) s u ∧ u.group? grp = some g' ∧ SameMemory s u ∧ g'.r = g.r ∧ g'.ld = g.ld ∧
      g'.st = g.st - op.counted.toNat ∧ g'.ops = g.ops.eraseIdx idx) ∧
  (∀ port grp g, s.group? grp = some g → g.zlr.contains port = true → g.hostPending port = false →
    ∃ u, occurs (.zeroLengthReadCompletion port) s u ∧
      u.group? grp = some { g with zlr := g.zlr.filter (· != port) } ∧ SameMemory s u) ∧
  (∀ grp g p, let t := s.runsOn (gangOf grp)
    let a := lineOf g.r.pc
    s.group? grp = some g → s.mayIssue grp = true → s.lineHeld grp = false →
    s.translate t g.r.sup a 64 .fetch = .ok p →
    (∀ i, i < 64 → s.poisonAt (p.loc + i) = false ∧ s.unreachable (p.loc + i) = false) →
    let line := s.coherentN p.loc 64
    lineParityOk line = true → lineWordOk line = true →
    ∃ u, occurs (.lineFetch grp) s u ∧ u.groups = s.groups ∧ (s.Canonical → SameReads s u) ∧
      (u.stall t).heldLine a.toNat = some line)

/-- A cart-queue or groom command of a stall has ended (R134, R182, R187, R324): it and its intervals are gone, its tag's
bit is 1, CP has fallen by one. -/
def Sys2Proof.Claim.cartEnded (s u : State) (t : Nat) (c : Cmd) : Prop :=
  (u.stall t).cartq = (s.stall t).cartq.filter (fun x => x.id != c.id) ∧
  (u.stall t).locks = (s.stall t).locks.filter (fun l => l.cmd != c.id) ∧
  (∀ n x, c.tag = some n → s.gang? c.gang = some x → u.gang? c.gang = some { x with tags := x.tags ||| (1#64 <<< n) }) ∧
  ∀ g, s.group? c.grp = some g → ∃ g', u.group? c.grp = some g' ∧ g'.cp = g.cp - 1 ∧ g'.ld = g.ld ∧ g'.st = g.st ∧
    g'.tl = g.tl ∧ g'.effects.length = g.effects.length ∧
    ∀ (i : Nat) e, g.effects[i]? = some e → (e.cmd.any fun x => x.id = c.id) = true → ∃ e', g'.effects[i]? = some e' ∧
      e'.complete = true

/-- Element (i, k) of an operand block: the sum of its planes' bits under their weights (R68, R330, R342). -/
def Sys2Proof.Claim.blockElem (b : Block) (o4 : Bool) (i k : Nat) : Int :=
  ((List.range b.words.length).map fun p =>
    if ((b.words.getD p []).getD i 0).testBit k then planeWeight o4 b.words.length p else 0).sum

/-- The engines (R133, R134, R153, R154, R182, R187, R323 to R325, R332, R339, R342 to R347, R363 to R372): a command starts
when no older interval stops it; a cart's elements have moved, a bale's blocks are written, an MLOOP has stepped its bank,
an MDRAIN has written its rows, an MCLR has cleared; queries and walks end with their results; callables run and end; a
groom job starts, and its report is written. That a command reads and writes all its bytes in the move of its completion is the
model's choice (log 24), as is the order in which a lane's traversal follows child words (log 15). -/
def Obligations.EngineEvents : Prop := ∀ s : State, s.Canonical →
  (∀ t i, s.mayStart t i = true →
    ∃ u, occurs (.cartStart t i) s u ∧ (u.stall t).cartq.length = (s.stall t).cartq.length ∧
      (∀ c, (s.stall t).cartq[i]? = some c → (u.stall t).cartq[i]? = some { c with running := true }) ∧
      (∀ j, j ≠ i → (u.stall t).cartq[j]? = (s.stall t).cartq[j]?) ∧ SameMemory s u) ∧
  (∀ t i c d, (s.stall t).cartq[i]? = some c → c.kind = .cart d → c.running = true →
    ∃ u, occurs (.cartComplete t i) s u ∧ cartEnded s u t c ∧
      (let base := (s.gang c.gang).scrbase
       let src := fun (v : Int × Int) (k : Nat) => cartSrc d + v.1 + k
       let dst := fun (v : Int × Int) (k : Nat) => cartDst d + v.2 + k
       cartBales d = false → cartSsp d = true → cartDsp d = true → cartBar d = false → (cartPlaces d).Nodup →
       (∀ v ∈ cartVisits d, 0 ≤ cartSrc d + v.1 ∧ 0 ≤ cartDst d + v.2) →
       (∀ v ∈ cartVisits d, ∀ w ∈ cartVisits d, ∀ j k, j < cartEsz d → k < cartEsz d → src v j ≠ dst w k) →
       ∀ v ∈ cartVisits d, ∀ k, k < cartEsz d →
         (u.stall t).scratch.read (base + (dst v k).toNat) = (s.stall t).scratch.read (base + (src v k).toNat))) ∧
  (∀ t i c d xs, (s.stall t).cartq[i]? = some c → c.kind = .cartg d xs → c.running = true →
    ∃ u, occurs (.cartgComplete t i) s u ∧ cartEnded s u t c) ∧
  (∀ t i c, (s.stall t).cartq[i]? = some c → c.kind = .bale → c.running = true →
    ∃ u, occurs (.baleComplete t i) s u ∧ cartEnded s u t c ∧
      (∀ w, c.out = [w] → (u.stall t).scratch.readN ((s.gang c.gang).scrbase + w.1) w.2.length = w.2)) ∧
  (∀ (b : Bank) (x y : Block) (xo4 yo4 : Bool) i n, i < 32 → n < 32 →
    kget 0 (b.kstep x y xo4 yo4).acc (32 * i + n) = kget 0 b.acc (32 * i + n) +
      BitVec.ofInt 48 (((List.range 256).map fun k => blockElem x xo4 i k * blockElem y yo4 n k).sum)) ∧
  (∀ t k g, s.planeHead t = some k → s.group? k.grp = some g →
    let base := (s.gang k.gang).scrbase
    let ends := fun (u : State) (n : Nat) => ∃ g', u.group? k.grp = some g' ∧ g'.tl = g.tl - n ∧ g'.cp = g.cp ∧
      (u.stall t).planeq = (s.stall t).planeq.drop 1 ∧
      (u.stall t).locks = (s.stall t).locks.filter (fun l => l.cmd != k.id)
    (∀ o a b c bank, k.kind = .mloop o a b c bank → bank < (s.stall t).banks.length →
      ∃ u, occurs (.mloopComplete t) s u ∧ ends u 1 ∧ SameMemory s u ∧
        (c.extractLsb' 0 16 = 0 → u.bank t bank = s.bank t bank) ∧
        (c.extractLsb' 0 16 = 1 → u.bank t bank = (s.bank t bank).kstep (s.block t (base + a.toNat) (o.pam + 1))
          (s.block t (base + b.toNat) (o.pbm + 1)) o.ao4 o.bo4)) ∧
    (∀ o dst bias c bank, k.kind = .mdrain o dst bias c bank → bank < (s.stall t).banks.length →
      ∃ u, occurs (.mdrainComplete t) s u ∧ ends u 1 ∧
        (o.clr = false → o.free = false → u.bank t bank = s.bank t bank) ∧
        (o.clr = true → ∀ n, (u.bank t bank).accAt n = 0) ∧ (o.free = true → (u.bank t bank).bound = none) ∧
        (o.exp = false → 4 * o.ty.bits ≤ drainPitch c → ∀ i j, i < 32 → j < 4 * o.ty.bits →
          let biasAt := fun n => sext (s.scr t (base + bias.toNat + 4 * n) 4) 32
          let table := (s.gang k.gang).tables.getD o.actt ActTable.identity
          let row := packRow o.ty.bits ((List.range 32).map fun n =>
            drainValue o c table (biasAt n) ((s.bank t bank).accAt (32 * i + n)))
          some ((u.stall t).scratch.read (base + (dst + i * drainPitch c) + j)) = row[j]?)) ∧
    (∀ o bank, k.kind = .mclr o bank → bank < (s.stall t).banks.length →
      ∃ u, occurs (.mclrRun t) s u ∧ ends u 0 ∧ SameMemory s u ∧ (∀ n, (u.bank t bank).accAt n = 0) ∧
        (u.bank t bank).set = false ∧ (u.bank t bank).bound = if o.free then none else (s.bank t bank).bound)) ∧
  (∀ grp g idx op, s.group? grp = some g → g.ops[idx]? = some op → op.countsLd = true →
    let ends := fun (i : Instr) (ws : List RegWrite) => ∃ u g', occurs i s u ∧ u.group? grp = some g' ∧ SameReads s u ∧
      g'.r = g.r.writes ws ∧ g'.ld = g.ld - op.counted.toNat ∧ g'.ops = g.ops.eraseIdx idx
    let n := dstBase op
    (∀ root l v, op.kind = .ray true root [(l, v)] →
      let e := s.rayEnd (gangOf grp) root v
      let beyond := s.rayOver (gangOf grp) root v
      let x : Lane := match e with | .ok none => 1 | .ok (some _) => 0 | .error _ => 2
      (beyond = false → ends (.rayQueryComplete grp idx) [.v n l x]) ∧
      (beyond = true → ends (.rayVisitLimit grp idx) [.v n l x])) ∧
    (∀ root l v, op.kind = .ray false root [(l, v)] →
      let e := s.rayEnd (gangOf grp) root v
      let beyond := s.rayOver (gangOf grp) root v
      let xs : List Lane := match e with
        | .ok none => [0x7F800000, 0xFFFFFFFF, 0, 0]
        | .ok (some h) => [h.t, h.prim, h.b1, h.b2]
        | .error c => [0x7FC00000, 0xFFFFFFFE, if c = .permission then 0x08 else 0x0B, 0]
      let ws := ((List.range 4).zip xs).map fun p => RegWrite.v (n + p.1) l p.2
      (beyond = false → ends (.rayQueryComplete grp idx) ws) ∧ (beyond = true → ends (.rayVisitLimit grp idx) ws)) ∧
    (∀ root l v, op.kind = .ltree root [(l, v)] →
      let e := s.treeEnd (gangOf grp) root v
      let ws := [RegWrite.v n l e.light, .v (n + 1) l e.pdf]
      (e.steps = true → ends (.ltreeStepLimit grp idx) ws) ∧
      (e.steps = false → ∀ is, ends (.loadComplete grp ⟨idx, is⟩) ws))) ∧
  (∀ t q rest, (s.stall t).calling = none → (s.stall t).calls = q :: rest →
    ∃ u g, occurs (.callableRunStart t) s u ∧ (u.stall t).calling = some q ∧ (u.stall t).calls = rest ∧
      u.group? (callableKey q.gang) = some g ∧ g.r.pc = q.fn ∧ g.r.exm = q.lanes ∧ g.r.getS 1 = q.s1 ∧
      g.r.sup = false ∧ g.vbudget = 16 ∧ g.transferFrom = some 0 ∧
      ∀ l xs (i : Nat) x, l < 32 → q.inputs = [(l, xs)] → xs[i]? = some x → g.r.getV i l = x) ∧
  (∀ t q r, let k := callableKey q.gang
    (s.stall t).calling = some q → s.runsOn (gangOf k) = t → s.group? k = some r → 65536 ≤ r.issues →
    q.who = .group → q.grp ≠ k →
    ∃ u, occurs (.callableIssueLimit t) s u ∧ (u.stall t).calling = none ∧
      ∀ c op, s.group? q.grp = some c → c.ops = [op] → op.kind = .call →
        ∃ c', u.group? q.grp = some c' ∧ c'.ops = [{ op with kind := .refused .deadlock 0xFFFFFFFF r.r.pc true }]) ∧
  (∀ n c rest, let t := s.runsOn c.gang
    (s.stable n).groomq = c :: rest → (s.stable n).jobs.length < 8 → kwf Stable.fresh s.stables = true →
    s.cmdBehind c = false →
    (s.stall t).blocked c.id ((s.stall t).locks.filter fun l => l.cmd = c.id) = false →
    ∃ u, occurs (.groomStart n) s u ∧ (u.stable n).groomq = rest ∧
      (u.stable n).jobs.length = (s.stable n).jobs.length + 1) ∧
  (∀ n (i : Nat) j, (s.stable n).jobs[i]? = some j → j.done = true → kwf Stable.fresh s.stables = true →
    ∃ u, occurs (.groomComplete n i) s u ∧ cartEnded s u j.stall j.cmd ∧ (u.stable n).jobs = (s.stable n).jobs.eraseIdx i ∧
      (u.stall j.stall).scratch.readN ((s.gang j.cmd.gang).scrbase + (j.cmd.groomOff + 56)) 8 =
        leBytes 8 (j.skips + j.cause * 2 ^ 16))

/-- What is sent out and comes back (R48, R93, R94, R100, R102, R176, R316, R319, R322, R395): a remote access checked and
performed at its target, its reply returned, the pages of a CLAIM re-homed, a shootdown acknowledged, a probe's end. The model's
choices: RANGE_LOCKED comes before MISALIGNED, the lower code first (log 14); alignment and poison are checked at the target
(log 39); all acknowledgements of a shootdown come in one move (log 33). -/
def Obligations.RemoteEvents : Prop := ∀ (s : State) grp g op, s.group? grp = some g → g.ops = [op] → s.Canonical →
  let becomes := fun (i : Instr) (op' : Op) (u : State) => occurs i s u ∧ u.group? grp = some { g with ops := [op'] }
  let lid := lidOf (gangOf grp)
  (∀ t f a, op.kind = .remote [t] f → op.accs = [a] →
    let h := s.hostOf t
    let held := if f.isSome then s.remoteWriteGang lid (BitVec.ofNat 64 t) a.va a.bytes
      else s.remoteReadGang lid (BitVec.ofNat 64 t) a.va a.bytes
    let addr := remoteForm (BitVec.ofNat 64 t) a.va
    let m := s.scr h a.loc a.bytes
    let answer := { op with kind := .answered, result := loadWrites op.ty op.dst [(a.lane, m)] }
    (held = none → becomes (.remoteAccessArrive grp)
      { op with kind := .refused .scrBounds (maskOf [a.lane]) addr false } { s with
        groups := kinsert s.groups grp
          { g with ops := [{ op with kind := .refused .scrBounds (maskOf [a.lane]) addr false }] } }) ∧
    (held ≠ none → (s.stall h).locked false a.loc a.bytes f.isSome = true → ∃ u, becomes (.remoteAccessArrive grp)
      { op with kind := .refused .rangeLocked (maskOf [a.lane]) addr false } u ∧ SameMemory s u) ∧
    (held ≠ none → (s.stall h).locked false a.loc a.bytes f.isSome = false → a.loc % a.bytes ≠ 0 →
      ∃ u, becomes (.remoteAccessArrive grp)
        { op with kind := .refused .misaligned (maskOf [a.lane]) addr false } u ∧ SameMemory s u) ∧
    (held ≠ none → (s.stall h).locked false a.loc a.bytes f.isSome = false → a.loc % a.bytes = 0 →
      s.scrPoisoned h a.loc a.bytes = true → ∃ u, becomes (.remoteAccessArrive grp)
        { op with kind := .refused .poison (maskOf [a.lane]) addr false } u ∧ SameMemory s u) ∧
    (held ≠ none → (s.stall h).locked false a.loc a.bytes f.isSome = false → a.loc % a.bytes = 0 →
      s.scrPoisoned h a.loc a.bytes = false →
      ∃ u, becomes (.remoteAccessArrive grp) answer u ∧ (f = none → SameMemory s u) ∧
        ∀ x, f = some x → ∀ b, (u.stall h).scratch.read b =
          if (x = .cas → m = a.compare.toNat) then
            ((s.scrWrite h a.loc (leBytes a.bytes (x.apply op.ty m a.value.toNat a.compare.toNat))).stall h).scratch.read b
          else (s.stall h).scratch.read b)) ∧
  (op.kind = .answered → ∃ u, becomes (.remoteReply grp) { op with kind := .replied } u ∧ SameMemory s u) ∧
  (∀ c lanes addr, op.kind = .refused c lanes addr false →
    ∃ u, becomes (.remoteReply grp) { op with kind := .refused c lanes addr true } u ∧ SameMemory s u) ∧
  (∀ va e pa w, op.kind = .claim va 1 → s.walk va = .ok w → s.leafAt va = some (pa, e) →
    let home : Word := BitVec.ofNat 64 (1 + partnerBarn (stableOf (s.runsOn (gangOf grp))))
    let e' := if pteFor e then e else (e &&& ~~~(0x1FF#64 <<< 52)) ||| (home <<< 52)
    ∃ u, becomes (.claimRehomeDone grp) { op with kind := .replied } u ∧
      (e' = e → SameMemory s u) ∧ (e' ≠ e → u.gmem.readN pa 8 = leBytes 8 e'.toNat)) ∧
  (∀ n, op.kind = .tlbinv true 0 0 → op.dst = [.s n] → s.tlbQuiet true 0 0 = true → kwf Stable.fresh s.stables = true →
    ∃ u, becomes (.shootdownAck grp)
        { op with kind := .replied, result := [.s n (BitVec.ofNat 64 (288 - (s.stables.filter fun p => p.2.lost).length))] } u ∧
      (∀ k, (u.stable k).tlb = []) ∧ ∀ k, (u.stall k).utlb = [] ∧ (u.stall k).lines = []) ∧
  (∀ desc first n dst, op.kind = .volinv desc first n → op.dst = [.s dst] →
    let ts := s.volStalls first n
    (∀ t ∈ ts, s.stallPending (s.hostOf t) = false) →
    ∃ u, becomes (.shootdownAck grp) { op with kind := .replied, result := [.s dst (BitVec.ofNat 64 ts.length)] } u ∧
      SameMemory s u) ∧
  (g.probing = true → g.standing = .slot →
    (s.probe grp = .ended →
      occurs (.probeResult grp) s { s with groups := kinsert s.groups grp { g with probing := false } }) ∧
    (s.probe grp = .deadlock → isCallable grp = false → g.r.taskId ≠ 0 →
      ∃ u g', occurs (.probeResult grp) s u ∧ u.group? grp = some g' ∧ g'.r.await = 0 ∧
        (g.r.depth = 0 → g'.standing = .exited) ∧ (g.r.depth ≠ 0 → g'.stage42 = .leaving)) ∧
    (s.probe grp = .limit →
      occurs (.probeLinkLimit grp) s { s with groups := kinsert s.groups grp { g with probing := false } }))

/-- Reset (R24, R30, R109, R138 to R140, R155, R163, R165, R184, R191 to R194, R196, R199, R201, R218, R237, R239, R243, R248,
R331, R392): what the spec gives each register and memory after a cold boot. That the memories of joined panels and hosts too
read zero then, and that a group's registers start at zero, is the model's choice (log 4; logs 55 and 56). -/
def Obligations.ResetValues : Prop :=
  let s := State.reset
  s.ptime = 0 ∧ s.nextLid = 1 ∧ s.lastStable = 287 ∧ s.evSeq = 1 ∧ s.evTail = 0 ∧ s.evHead = 0 ∧ s.evLost = false ∧
  (∀ p, p < 4 → s.ptrs[p]? = some 0) ∧ s.loader.state = 0 ∧ s.own.owned = false ∧ s.own.epoch = 0 ∧
  s.cfg.ptEn = false ∧ s.cfg.ls = 0 ∧ s.cfg.rs = 0 ∧ s.cfg.tmapEn = false ∧ s.cfg.starve = 0x0400 ∧
  (∀ q, (s.queue q).en = false ∧ (s.queue q).prio = 0 ∧ (s.queue q).quantum = 0x001000 ∧ (s.queue q).entries = [] ∧
    (s.queue q).deficit = 0) ∧
  (∀ p, (s.port p).link = false ∧ (s.port p).denied = false ∧ (s.port p).refused = false ∧ (s.port p).clost = false) ∧
  (∀ l, (s.link l).en = false ∧ (s.link l).inb = false) ∧
  (∀ c, (s.yard c).bound = false) ∧ s.gangs = [] ∧ s.groups = [] ∧
  (∀ loc, s.gmem.read loc = 0 ∧ s.loft.read loc = 0 ∧ s.ownerOf loc = none ∧ s.poisoned loc = false) ∧
  (∀ t, (∀ a, (s.stall t).scratch.read a = 0) ∧ (s.stall t).zmap = [] ∧ (s.stall t).l1 = [] ∧ (s.stall t).locks = [] ∧
    (s.stall t).cyc = 0 ∧ (s.stall t).banks.length = 4 ∧
    ∀ b ∈ (s.stall t).banks, (∀ k, b.accAt k = 0) ∧ (∀ i, b.getRa i = 0x3F ∧ b.getRb i = 0x3F) ∧ b.set = false ∧
      b.bound = none) ∧
  (∀ a ∈ Gang.fresh.tables, ∀ x : Int, -2 ^ 47 ≤ x → x < 2 ^ 47 → a.apply x = x) ∧
  ∀ (n i : Nat), Regs.zero.getS n = 0 ∧ Regs.zero.getV n i = 0

/-- Words written out from the encodings of R255 to R311 and R374, with the instruction that each stands for: ADD.S64 s3, s3, 1;
FMA.F32.RTZ v5, v1, −v2, v3; BRC; LD.G.S32.ACQ v6, [v2 + 0x40]; MLOOP.PA8.PB4.AO4.B1; FWAIT s6, s4; DRAW.F32; YBAR; and a
major code and a minor code that R264 refuses. -/
def Obligations.DecodeWords : Prop :=
  (∃ o, decodeSlot 0x01010D0E0000C00000000001#96 = .ok (.add o) ∧ o.dst = .s 3 ∧ o.a = .s 3 ∧ o.ty = .s64 ∧ o.imm = 1) ∧
  (∃ o, decodeSlot 0x200C1404080D081000000000#96 = .ok (.fma o) ∧ o.dst = .v 5 ∧ o.a = .v 1 ∧ o.b = .v 2 ∧ o.c = .v 3 ∧
    o.ty = .f32 ∧ o.negB = true ∧ o.rnd ≠ 0) ∧
  (∃ o, decodeSlot 0x040401111400C080FFFFFFE9#96 = .ok (.brc o) ∧ o.a = .s 4 ∧ o.b = .s 5 ∧ o.imm = 0xFFFFFFE9) ∧
  (∃ o, decodeSlot 0x600018080000880000000040#96 = .ok (.ldG o) ∧ o.dst = .v 6 ∧ o.a = .v 2 ∧ o.ty = .s32 ∧ o.ord = 2 ∧
    o.imm = 0x40) ∧
  (∃ o, decodeSlot 0x800801111519CE4000000000#96 = .ok (.mloop o) ∧ o.pam = 7 ∧ o.pbm = 3 ∧ o.ao4 = true ∧ o.bank = 1) ∧
  (∃ o, decodeSlot 0xA20519100000000000000000#96 = .ok (.fwait o) ∧ o.dst = .s 6 ∧ o.a = .s 4) ∧
  (∃ o, decodeSlot 0xA20001111400000400000040#96 = .ok (.taskRun o)) ∧
  (∃ o, decodeSlot 0x90000C060001000000000000#96 = .ok (.draw o) ∧ o.dst = .v 3 ∧ o.a = .v 1 ∧ o.ty = .f32) ∧
  (∃ o, decodeSlot 0xA30115200000000000000000#96 = .ok (.ybar o)) ∧
  (∃ o, decodeSlot 0#96 = .ok (.nop o)) ∧
  decodeSlot 0x060000000000000000000000#96 = .error .major ∧
  decodeSlot 0x000800000000000000000000#96 = .error .minor

/-- Decoding and encoding agree (R255 to R264, R311, R374): every well-formed instruction of the opcode map, with every
operand, modifier and immediate that its form admits, is read from its twelve bytes as itself; and whatever a slot is read
as is well formed and has that slot's bits. -/
def Obligations.DecodeEncode : Prop :=
  (∀ i w, i.WellFormed → encode i = some w → decodeSlot w = .ok i ∧ decodeBytes (slotBytes w) = .ok i) ∧
  ∀ w i, decodeSlot w = .ok i → i.WellFormed ∧ encode i = some w

/-- A step runs the decoded instruction (R205, R206, R249 to R254): where a stall's turn has come and the group that issues has
its line in the line store, good in parity and line word, with a live slot at its PC that a transfer may reach, the step is
exec of the slot's instruction, at the state in which the group's successor is the slot after it and its marks are its place in
the line, the first or the second of a marked pair, also where it issues alone (the model's reading, log 79); after it the marks
are gone, and what an issue leaves behind is noted. For a marked pair that follows R253 and whose second slot is ready too,
the second slot's instruction runs in the same step, and the baler's set acts after a clear beside it (R80). -/
def Obligations.StepRunsDecoded : Prop := ∀ (s : State) t rest k g line p i,
  s.agenda = .issue t :: rest →
  let s1 := { s with agenda := rest }
  let s2 := { s1 with cur := k }
  let n := (g.r.pc.extractLsb' 0 3).toNat
  s1.streakEnds t = none → s1.nextIssuer t = some k → isCallable k = false → s.group? k = some g → g.stage42 ≠ .leaving →
  (s2.myDbg.att && s2.myDbg.hreq) = false → s2.atFirmware = false → g.deny = none → g.walk = none →
  kwf Stall.fresh s.stalls = true →
  s.translate (s.runsOn (gangOf k)) g.r.sup (lineOf g.r.pc) 64 .fetch = .ok p →
  (s.stall (s.runsOn (gangOf k))).heldLine (lineOf g.r.pc).toNat = some line →
  lineParityOk line = true → lineWordOk line = true → g.r.pc.extractLsb' 3 3 = 0 → n < lineLive line →
  (g.transferFrom ≠ none → lineTgt line n = true) → decodeSlot (lineSlot line n) = .ok i →
  let paired := linePair line n
  let after := fun (m : Nat) => if n + m < lineLive line then g.r.pc + BitVec.ofNat 64 m else lineOf g.r.pc + 64
  ∃ u : State, u.cur = k ∧ u.agenda = rest ∧ (s.Canonical → SameReads s u) ∧ (∀ j, j ≠ k → u.group? j = s.group? j) ∧
    u.group? k = some { g with
      succ := if paired then g.r.pc + 1 else after 1, transferFrom := none, pairFirst := paired,
      pairSecond := 0 < n && linePair line (n - 1), before := none } ∧
    ∀ v, exec i u = .next v →
      (paired = false → step s = .next (s1.afterIssue (match v.last with | .held _ => v | _ => v.unpair) t k)) ∧
      ∀ j gv, paired = true → decodeSlot (lineSlot line (n + 1)) = .ok j → pairRules i (lineSlot line (n + 1)) = true →
        u.secondWaits line = false → v.last = .retired → v.cur = k → v.group? k = some gv → gv.r.pc = g.r.pc + 1 →
        ∃ y : State, y.group? k = some { gv with
            pairFirst := false, pairSecond := true, before := some (g.cnts, (s.gang (gangOf k)).tags), succ := after 2 } ∧
          { y with groups := v.groups } = v ∧
          ∀ z, exec j y = .next z → z.last = .retired → step s = .next (s1.afterIssue (pairStatus i j u z.unpair) t k)

/-- The reset state's memories are in canonical form, which is the model's own way to write them down and no rule of the
spec. -/
def Obligations.CanonicalReset : Prop := State.reset.Canonical

/-- Every step keeps the canonical form of the memories: of the global memory, the loft, the tables of owned words, of poisoned
bytes, of barns and of stalls, and every stall's scratchpad. The form is the model's own way to write them down and no rule of
the spec. -/
def Obligations.CanonicalKept : Prop := ∀ s t : State, s.Canonical → step s = .next t → t.Canonical
end

