-- ==== Sys2Proof/Laws/Alu.lean ====
section
/-!
SUPPORT. The integer arithmetic of the model as operations on bit vectors: extension (R8, R54), wrapping (R7), and the value
that a scalar register is given (R271).
-/

namespace Sys2Proof.Machine

theorem ETy.bits_pos (t : ETy) : 0 < t.bits := by cases t <;> decide
theorem ETy.bits_le (t : ETy) : t.bits ≤ 64 := by cases t <;> decide

/-- SEXT of R8 is the signed value of the low bits. -/
theorem sext_eq_toInt (x n : Nat) : sext x n = (BitVec.ofNat n x).toInt := by
  simp only [sext, BitVec.toInt, BitVec.toNat_ofNat]
  split <;> simp

/-- SEXT of R8 is the balanced remainder. -/
theorem sext_eq_bmod (x n : Nat) : sext x n = (x : Int).bmod (2 ^ n) := by
  have h := Int.emod_bmod (x := (x : Int)) (n := 2 ^ n)
  rw [sext_eq_toInt, BitVec.toInt_eq_toNat_bmod, BitVec.toNat_ofNat, ← h]
  simp

theorem extTy_signed {t : ETy} (h : t.signed = true) (a : Word) : extTy t a.toNat = (a.setWidth t.bits).toInt := by
  simp only [extTy, h, if_true, sext_eq_toInt]
  exact congrArg BitVec.toInt (BitVec.eq_of_toNat_eq (by simp))

theorem extTy_unsigned {t : ETy} (h : t.signed = false) (a : Word) : extTy t a.toNat = (a.setWidth t.bits).toNat := by
  simp [extTy, h, zext]

/-- An extended operand stands for its low bits, whatever the type's sign. -/
theorem ofInt_extTy (t : ETy) (a : Word) : BitVec.ofInt t.bits (extTy t a.toNat) = a.setWidth t.bits := by
  cases h : t.signed
  · rw [extTy_unsigned h, BitVec.ofInt_natCast, BitVec.ofNat_toNat, BitVec.setWidth_eq]
  · rw [extTy_signed h, BitVec.ofInt_toInt]

theorem wrapInt_eq (n : Nat) (r : Int) : wrapInt n r = (BitVec.ofInt n r).toNat := by
  simp [wrapInt, BitVec.toNat_ofInt]

/-- The value that a scalar register is given is the extension of the low bits of the result (R54, R271). -/
theorem toScalar_signed {t : ETy} (h : t.signed = true) (r : Int) :
    toScalar t r = (BitVec.ofInt t.bits r).signExtend 64 := by
  simp only [toScalar, extTy, h, if_true, sext_eq_toInt, wrapInt_eq, BitVec.ofNat_toNat, BitVec.setWidth_eq]
  rfl

theorem toScalar_unsigned {t : ETy} (h : t.signed = false) (r : Int) :
    toScalar t r = (BitVec.ofInt t.bits r).setWidth 64 := by
  have h1 : (BitVec.ofInt t.bits r).toNat % 2 ^ t.bits = (BitVec.ofInt t.bits r).toNat :=
    Nat.mod_eq_of_lt (BitVec.isLt _)
  simp only [toScalar, extTy, h, zext, wrapInt_eq, h1, Bool.false_eq_true, if_false, BitVec.ofInt_natCast]
  exact BitVec.eq_of_toNat_eq (by simp)

end Sys2Proof.Machine
end

