-- ==== Sys2Proof/Laws/KMap.lean ====
section
/-!
SUPPORT. Laws of sparse maps and memories: what a read gives after a write, and that every operation keeps the canonical
form.
-/

namespace Sys2Proof

section
variable {V : Type}

/-! ### Finding -/

@[simp] theorem kfind_kinsert_self (m : KMap V) (a : Nat) (x : V) : kfind (kinsert m a x) a = some x := by
  induction m with
  | nil => simp [kinsert, kfind]
  | cons p m ih =>
    obtain ⟨k, v⟩ := p
    by_cases hk : k = a
    · simp [kinsert, kfind, hk]
    · by_cases ha : a < k <;> simp [kinsert, kfind, hk, ha, ih]

theorem kfind_kinsert_ne (m : KMap V) (x : V) {a b : Nat} (h : b ≠ a) :
    kfind (kinsert m a x) b = kfind m b := by
  induction m with
  | nil => simp [kinsert, kfind, h.symm]
  | cons p m ih =>
    obtain ⟨k, v⟩ := p
    by_cases hk : k = a
    · subst hk
      simp [kinsert, kfind, h.symm]
    · by_cases ha : a < k <;> simp [kinsert, kfind, hk, ha, ih, h.symm]

/-! ### Reading after a change -/

@[simp] theorem kget_kinsert_self (d : V) (m : KMap V) (a : Nat) (x : V) : kget d (kinsert m a x) a = x := by
  induction m with
  | nil => simp [kinsert, kget]
  | cons p m ih =>
    obtain ⟨k, v⟩ := p
    by_cases hk : k = a
    · simp [kinsert, kget, hk]
    · by_cases ha : a < k <;> simp [kinsert, kget, hk, ha, ih]

theorem kget_kinsert_ne (d : V) (m : KMap V) (x : V) {a b : Nat} (h : b ≠ a) :
    kget d (kinsert m a x) b = kget d m b := by
  induction m with
  | nil =>
    by_cases hb : b < a <;> simp [kinsert, kget, h.symm]
  | cons p m ih =>
    obtain ⟨k, v⟩ := p
    by_cases hk : k = a
    · subst hk
      simp [kinsert, kget, h.symm]
    · by_cases ha : a < k
      · by_cases hb : b < a
        · have h1 : k ≠ b := by omega
          have h2 : b < k := by omega
          simp [kinsert, kget, hk, ha, hb, h.symm, h1, h2]
        · simp [kinsert, kget, hk, ha, hb, h.symm]
      · simp [kinsert, kget, hk, ha, ih]

variable [DecidableEq V]

theorem kwfFrom_mono (d : V) {m : KMap V} {a b : Nat} (hab : a ≤ b) (h : kwfFrom d b m) : kwfFrom d a m := by
  cases m with
  | nil => rfl
  | cons p m =>
    obtain ⟨k, v⟩ := p
    simp only [kwfFrom, Bool.and_eq_true, decide_eq_true_eq] at h ⊢
    exact ⟨⟨by omega, h.1.2⟩, h.2⟩

/-- Nothing is listed below the bound. -/
theorem kget_below (d : V) {m : KMap V} {lo a : Nat} (h : kwfFrom d lo m) (ha : a < lo) : kget d m a = d := by
  cases m with
  | nil => rfl
  | cons p m =>
    obtain ⟨k, v⟩ := p
    simp only [kwfFrom, Bool.and_eq_true, decide_eq_true_eq] at h
    have h1 : k ≠ a := by omega
    have h2 : a < k := by omega
    simp [kget, h1, h2]

theorem kwfFrom_kinsert (d : V) {x : V} (hx : x ≠ d) :
    ∀ {m : KMap V} {lo a : Nat}, kwfFrom d lo m → lo ≤ a → kwfFrom d lo (kinsert m a x)
  | [], lo, a, _, hla => by simp [kinsert, kwfFrom, hla, hx]
  | (k, v) :: m, lo, a, h, hla => by
    simp only [kwfFrom, Bool.and_eq_true, decide_eq_true_eq, bne_iff_ne, ne_eq] at h
    by_cases hk : k = a
    · subst hk
      simp [kinsert, kwfFrom, hx, hla, h.2]
    · by_cases ha : a < k
      · simp only [kinsert, hk, ha, if_true, if_false, kwfFrom, Bool.and_eq_true, decide_eq_true_eq, bne_iff_ne, ne_eq]
        exact ⟨⟨hla, hx⟩, ⟨by omega, h.1.2⟩, h.2⟩
      · simp only [kinsert, hk, ha, if_false, kwfFrom, Bool.and_eq_true, decide_eq_true_eq, bne_iff_ne, ne_eq]
        exact ⟨h.1, kwfFrom_kinsert d hx h.2 (by omega)⟩

theorem kwfFrom_kerase (d : V) :
    ∀ {m : KMap V} {lo a : Nat}, kwfFrom d lo m → kwfFrom d lo (kerase m a)
  | [], _, _, _ => rfl
  | (k, v) :: m, lo, a, h => by
    have h' := h
    simp only [kwfFrom, Bool.and_eq_true, decide_eq_true_eq, bne_iff_ne, ne_eq] at h
    by_cases hk : k = a
    · simp only [kerase, hk, if_true]
      exact kwfFrom_mono d (by omega) h.2
    · by_cases ha : a < k
      · simpa only [kerase, hk, ha, if_true, if_false] using h'
      · simp only [kerase, hk, ha, if_false, kwfFrom, Bool.and_eq_true, decide_eq_true_eq, bne_iff_ne, ne_eq]
        exact ⟨h.1, kwfFrom_kerase d h.2⟩

/-- Setting a value keeps the canonical form. -/
theorem kwf_kset (d : V) {m : KMap V} {a : Nat} {x : V} (h : kwf d m) : kwf d (kset d m a x) := by
  unfold kset
  split
  · exact kwfFrom_kerase d h
  · rename_i hx
    exact kwfFrom_kinsert d hx h (Nat.zero_le a)

theorem kget_kerase_self (d : V) :
    ∀ {m : KMap V} {lo a : Nat}, kwfFrom d lo m → kget d (kerase m a) a = d
  | [], _, _, _ => rfl
  | (k, v) :: m, lo, a, h => by
    simp only [kwfFrom, Bool.and_eq_true, decide_eq_true_eq, bne_iff_ne, ne_eq] at h
    by_cases hk : k = a
    · subst hk
      simp only [kerase, if_true]
      exact kget_below d h.2 (by omega)
    · by_cases ha : a < k
      · simp [kerase, kget, hk, ha]
      · simp only [kerase, kget, hk, ha, if_false]
        exact kget_kerase_self d h.2

theorem kget_kerase_ne (d : V) {a b : Nat} (hab : b ≠ a) :
    ∀ {m : KMap V} {lo : Nat}, kwfFrom d lo m → kget d (kerase m a) b = kget d m b
  | [], _, _ => rfl
  | (k, v) :: m, lo, h => by
    simp only [kwfFrom, Bool.and_eq_true, decide_eq_true_eq, bne_iff_ne, ne_eq] at h
    by_cases hk : k = a
    · subst hk
      simp only [kerase, if_true, kget, hab.symm, if_false]
      by_cases hb : b < k
      · simp only [hb, if_true]
        exact kget_below d h.2 (by omega)
      · simp [hb]
    · by_cases ha : a < k
      · simp [kerase, hk, ha]
      · simp only [kerase, kget, hk, ha, if_false]
        rw [kget_kerase_ne d hab h.2]

/-- A read after a write to the same key gives the value written. -/
theorem kget_kset_self (d : V) {m : KMap V} {a : Nat} {x : V} (h : kwf d m) : kget d (kset d m a x) a = x := by
  unfold kset
  split
  · rename_i hx
    rw [kget_kerase_self d h, hx]
  · simp

/-- A write leaves every other key alone. -/
theorem kget_kset_ne (d : V) {m : KMap V} {a b : Nat} {x : V} (h : kwf d m) (hab : b ≠ a) :
    kget d (kset d m a x) b = kget d m b := by
  unfold kset
  split
  · exact kget_kerase_ne d hab h
  · exact kget_kinsert_ne d m x hab

end

/-! ### Memories -/

theorem Memory.wf_nil : Memory.wf [] = true := rfl

theorem Memory.wf_write {m : Memory} {a : Nat} {b : Byte} (h : m.wf) : (m.write a b).wf :=
  kwf_kset 0 h

theorem Memory.read_write_self {m : Memory} {a : Nat} {b : Byte} (h : m.wf) : (m.write a b).read a = b :=
  kget_kset_self 0 h

theorem Memory.read_write_ne {m : Memory} {a c : Nat} {b : Byte} (h : m.wf) (hc : c ≠ a) :
    (m.write a b).read c = m.read c :=
  kget_kset_ne 0 h hc

theorem Memory.wf_writeN : ∀ (bs : List Byte) {m : Memory} {a : Nat}, m.wf → (m.writeN a bs).wf
  | [], _, _, h => h
  | _ :: bs, _, _, h => Memory.wf_writeN bs (Memory.wf_write h)

/-- A read outside the bytes written gives what it gave before. -/
theorem Memory.read_writeN_out : ∀ (bs : List Byte) {m : Memory} {a c : Nat}, m.wf → (c < a ∨ a + bs.length ≤ c) →
    (m.writeN a bs).read c = m.read c
  | [], _, _, _, _, _ => rfl
  | b :: bs, m, a, c, h, hc => by
    simp only [List.length_cons] at hc
    show ((m.write a b).writeN (a + 1) bs).read c = m.read c
    rw [Memory.read_writeN_out bs (Memory.wf_write h) (by omega), Memory.read_write_ne h (by omega)]

/-- A read of a byte written gives that byte. -/
theorem Memory.read_writeN_in : ∀ (bs : List Byte) {m : Memory} {a i : Nat}, m.wf → (hi : i < bs.length) →
    (m.writeN a bs).read (a + i) = bs[i]
  | b :: bs, m, a, 0, h, _ => by
    show ((m.write a b).writeN (a + 1) bs).read (a + 0) = b
    rw [Memory.read_writeN_out bs (Memory.wf_write h) (by omega), Nat.add_zero, Memory.read_write_self h]
  | b :: bs, m, a, i + 1, h, hi => by
    have hi' : i < bs.length := by simpa using hi
    show ((m.write a b).writeN (a + 1) bs).read (a + (i + 1)) = (b :: bs)[i + 1]
    have := Memory.read_writeN_in bs (m := m.write a b) (a := a + 1) (i := i) (Memory.wf_write h) hi'
    rw [show a + (i + 1) = a + 1 + i by omega, this]
    rfl

end Sys2Proof
end

