-- ==== Sys2Proof/Laws/State.lean ====
section
/-!
SUPPORT. What each update of a part of the state leaves alone, field by field, and what a reader of that part gets. A
conjunction gives the simplifier one lemma for each of its fields.
-/

namespace Sys2Proof.Machine

@[simp] theorem State.setGroup_fields (s : State) (k : Nat) (g : Group) :
    (s.setGroup k g).ptime = s.ptime ∧ (s.setGroup k g).nextLid = s.nextLid ∧
    (s.setGroup k g).lastStable = s.lastStable ∧ (s.setGroup k g).ptrs = s.ptrs ∧
    (s.setGroup k g).starving = s.starving ∧ (s.setGroup k g).lq = s.lq ∧ (s.setGroup k g).appends = s.appends ∧
    (s.setGroup k g).loftmap = s.loftmap ∧ (s.setGroup k g).launches = s.launches ∧ (s.setGroup k g).gangs = s.gangs ∧
    (s.setGroup k g).fetchReqs = s.fetchReqs ∧ (s.setGroup k g).cfg = s.cfg ∧ (s.setGroup k g).evTail = s.evTail ∧
    (s.setGroup k g).evHead = s.evHead ∧ (s.setGroup k g).evLost = s.evLost ∧ (s.setGroup k g).evSeq = s.evSeq ∧
    (s.setGroup k g).evWaiting = s.evWaiting ∧ (s.setGroup k g).evRing = s.evRing ∧
    (s.setGroup k g).preempt = s.preempt ∧ (s.setGroup k g).own = s.own ∧ (s.setGroup k g).ports = s.ports ∧
    (s.setGroup k g).links = s.links ∧ (s.setGroup k g).deadLinks = s.deadLinks ∧ (s.setGroup k g).loader = s.loader ∧
    (s.setGroup k g).att = s.att ∧ (s.setGroup k g).fwTvec = s.fwTvec ∧ (s.setGroup k g).gmem = s.gmem ∧
    (s.setGroup k g).poison = s.poison ∧ (s.setGroup k g).owners = s.owners ∧ (s.setGroup k g).loft = s.loft ∧
    (s.setGroup k g).stalls = s.stalls ∧ (s.setGroup k g).stables = s.stables ∧ (s.setGroup k g).barns = s.barns ∧
    (s.setGroup k g).yards = s.yards ∧ (s.setGroup k g).nextCmd = s.nextCmd ∧ (s.setGroup k g).nextOp = s.nextOp ∧
    (s.setGroup k g).nextGang = s.nextGang ∧ (s.setGroup k g).nextReq = s.nextReq ∧
    (s.setGroup k g).agenda = s.agenda ∧ (s.setGroup k g).cur = s.cur ∧ (s.setGroup k g).tried = s.tried ∧
    (s.setGroup k g).last = s.last ∧ (s.setGroup k g).free = s.free ∧
    (s.setGroup k g).readings = s.readings ∧ (s.setGroup k g).heard = s.heard ∧
    (s.setGroup k g).nextItem = s.nextItem ∧ (s.setGroup k g).homes = s.homes :=
    ⟨rfl, rfl, rfl, rfl,
    rfl, rfl, rfl, rfl, rfl, rfl, rfl, rfl, rfl, rfl, rfl, rfl, rfl, rfl, rfl, rfl, rfl, rfl, rfl, rfl, rfl, rfl,
    rfl, rfl, rfl, rfl, rfl, rfl, rfl, rfl, rfl, rfl, rfl, rfl, rfl, rfl, rfl, rfl, rfl, rfl, rfl, rfl, rfl⟩

@[simp] theorem State.setMe_fields (s : State) (g : Group) :
    (s.setMe g).ptime = s.ptime ∧ (s.setMe g).nextLid = s.nextLid ∧ (s.setMe g).lastStable = s.lastStable ∧
    (s.setMe g).ptrs = s.ptrs ∧ (s.setMe g).starving = s.starving ∧ (s.setMe g).lq = s.lq ∧
    (s.setMe g).appends = s.appends ∧ (s.setMe g).loftmap = s.loftmap ∧ (s.setMe g).launches = s.launches ∧
    (s.setMe g).gangs = s.gangs ∧ (s.setMe g).fetchReqs = s.fetchReqs ∧ (s.setMe g).cfg = s.cfg ∧
    (s.setMe g).evTail = s.evTail ∧ (s.setMe g).evHead = s.evHead ∧ (s.setMe g).evLost = s.evLost ∧
    (s.setMe g).evSeq = s.evSeq ∧ (s.setMe g).evWaiting = s.evWaiting ∧ (s.setMe g).evRing = s.evRing ∧
    (s.setMe g).preempt = s.preempt ∧ (s.setMe g).own = s.own ∧ (s.setMe g).ports = s.ports ∧
    (s.setMe g).links = s.links ∧ (s.setMe g).deadLinks = s.deadLinks ∧ (s.setMe g).loader = s.loader ∧
    (s.setMe g).att = s.att ∧ (s.setMe g).fwTvec = s.fwTvec ∧ (s.setMe g).gmem = s.gmem ∧
    (s.setMe g).poison = s.poison ∧ (s.setMe g).owners = s.owners ∧ (s.setMe g).loft = s.loft ∧
    (s.setMe g).stalls = s.stalls ∧ (s.setMe g).stables = s.stables ∧ (s.setMe g).barns = s.barns ∧
    (s.setMe g).yards = s.yards ∧ (s.setMe g).nextCmd = s.nextCmd ∧ (s.setMe g).nextOp = s.nextOp ∧
    (s.setMe g).nextGang = s.nextGang ∧ (s.setMe g).nextReq = s.nextReq ∧ (s.setMe g).agenda = s.agenda ∧
    (s.setMe g).cur = s.cur ∧ (s.setMe g).tried = s.tried ∧ (s.setMe g).last = s.last ∧ (s.setMe g).free = s.free ∧
    (s.setMe g).readings = s.readings ∧ (s.setMe g).heard = s.heard ∧
    (s.setMe g).nextItem = s.nextItem ∧ (s.setMe g).homes = s.homes :=
    ⟨rfl, rfl, rfl, rfl,
    rfl, rfl, rfl, rfl, rfl, rfl, rfl, rfl, rfl, rfl, rfl, rfl, rfl, rfl, rfl, rfl, rfl, rfl, rfl, rfl, rfl, rfl,
    rfl, rfl, rfl, rfl, rfl, rfl, rfl, rfl, rfl, rfl, rfl, rfl, rfl, rfl, rfl, rfl, rfl, rfl, rfl, rfl, rfl⟩

@[simp] theorem State.modMe_fields (s : State) (f : Group → Group) :
    (s.modMe f).ptime = s.ptime ∧ (s.modMe f).nextLid = s.nextLid ∧ (s.modMe f).lastStable = s.lastStable ∧
    (s.modMe f).ptrs = s.ptrs ∧ (s.modMe f).starving = s.starving ∧ (s.modMe f).lq = s.lq ∧
    (s.modMe f).appends = s.appends ∧ (s.modMe f).loftmap = s.loftmap ∧ (s.modMe f).launches = s.launches ∧
    (s.modMe f).gangs = s.gangs ∧ (s.modMe f).fetchReqs = s.fetchReqs ∧ (s.modMe f).cfg = s.cfg ∧
    (s.modMe f).evTail = s.evTail ∧ (s.modMe f).evHead = s.evHead ∧ (s.modMe f).evLost = s.evLost ∧
    (s.modMe f).evSeq = s.evSeq ∧ (s.modMe f).evWaiting = s.evWaiting ∧ (s.modMe f).evRing = s.evRing ∧
    (s.modMe f).preempt = s.preempt ∧ (s.modMe f).own = s.own ∧ (s.modMe f).ports = s.ports ∧
    (s.modMe f).links = s.links ∧ (s.modMe f).deadLinks = s.deadLinks ∧ (s.modMe f).loader = s.loader ∧
    (s.modMe f).att = s.att ∧ (s.modMe f).fwTvec = s.fwTvec ∧ (s.modMe f).gmem = s.gmem ∧
    (s.modMe f).poison = s.poison ∧ (s.modMe f).owners = s.owners ∧ (s.modMe f).loft = s.loft ∧
    (s.modMe f).stalls = s.stalls ∧ (s.modMe f).stables = s.stables ∧ (s.modMe f).barns = s.barns ∧
    (s.modMe f).yards = s.yards ∧ (s.modMe f).nextCmd = s.nextCmd ∧ (s.modMe f).nextOp = s.nextOp ∧
    (s.modMe f).nextGang = s.nextGang ∧ (s.modMe f).nextReq = s.nextReq ∧ (s.modMe f).agenda = s.agenda ∧
    (s.modMe f).cur = s.cur ∧ (s.modMe f).tried = s.tried ∧ (s.modMe f).last = s.last ∧ (s.modMe f).free = s.free ∧
    (s.modMe f).readings = s.readings ∧ (s.modMe f).heard = s.heard ∧
    (s.modMe f).nextItem = s.nextItem ∧ (s.modMe f).homes = s.homes :=
    ⟨rfl, rfl, rfl, rfl,
    rfl, rfl, rfl, rfl, rfl, rfl, rfl, rfl, rfl, rfl, rfl, rfl, rfl, rfl, rfl, rfl, rfl, rfl, rfl, rfl, rfl, rfl,
    rfl, rfl, rfl, rfl, rfl, rfl, rfl, rfl, rfl, rfl, rfl, rfl, rfl, rfl, rfl, rfl, rfl, rfl, rfl, rfl, rfl⟩

@[simp] theorem State.setRegs_fields (s : State) (r : Regs) :
    (s.setRegs r).ptime = s.ptime ∧ (s.setRegs r).nextLid = s.nextLid ∧ (s.setRegs r).lastStable = s.lastStable ∧
    (s.setRegs r).ptrs = s.ptrs ∧ (s.setRegs r).starving = s.starving ∧ (s.setRegs r).lq = s.lq ∧
    (s.setRegs r).appends = s.appends ∧ (s.setRegs r).loftmap = s.loftmap ∧ (s.setRegs r).launches = s.launches ∧
    (s.setRegs r).gangs = s.gangs ∧ (s.setRegs r).fetchReqs = s.fetchReqs ∧ (s.setRegs r).cfg = s.cfg ∧
    (s.setRegs r).evTail = s.evTail ∧ (s.setRegs r).evHead = s.evHead ∧ (s.setRegs r).evLost = s.evLost ∧
    (s.setRegs r).evSeq = s.evSeq ∧ (s.setRegs r).evWaiting = s.evWaiting ∧ (s.setRegs r).evRing = s.evRing ∧
    (s.setRegs r).preempt = s.preempt ∧ (s.setRegs r).own = s.own ∧ (s.setRegs r).ports = s.ports ∧
    (s.setRegs r).links = s.links ∧ (s.setRegs r).deadLinks = s.deadLinks ∧ (s.setRegs r).loader = s.loader ∧
    (s.setRegs r).att = s.att ∧ (s.setRegs r).fwTvec = s.fwTvec ∧ (s.setRegs r).gmem = s.gmem ∧
    (s.setRegs r).poison = s.poison ∧ (s.setRegs r).owners = s.owners ∧ (s.setRegs r).loft = s.loft ∧
    (s.setRegs r).stalls = s.stalls ∧ (s.setRegs r).stables = s.stables ∧ (s.setRegs r).barns = s.barns ∧
    (s.setRegs r).yards = s.yards ∧ (s.setRegs r).nextCmd = s.nextCmd ∧ (s.setRegs r).nextOp = s.nextOp ∧
    (s.setRegs r).nextGang = s.nextGang ∧ (s.setRegs r).nextReq = s.nextReq ∧ (s.setRegs r).agenda = s.agenda ∧
    (s.setRegs r).cur = s.cur ∧ (s.setRegs r).tried = s.tried ∧ (s.setRegs r).last = s.last ∧
    (s.setRegs r).free = s.free ∧
    (s.setRegs r).readings = s.readings ∧ (s.setRegs r).heard = s.heard ∧
    (s.setRegs r).nextItem = s.nextItem ∧ (s.setRegs r).homes = s.homes :=
    ⟨rfl, rfl, rfl, rfl,
    rfl, rfl, rfl, rfl, rfl, rfl, rfl, rfl, rfl, rfl, rfl, rfl, rfl, rfl, rfl, rfl, rfl, rfl, rfl, rfl, rfl, rfl,
    rfl, rfl, rfl, rfl, rfl, rfl, rfl, rfl, rfl, rfl, rfl, rfl, rfl, rfl, rfl, rfl, rfl, rfl, rfl, rfl, rfl⟩

@[simp] theorem State.jump_fields (s : State) (x : Word) :
    (s.jump x).ptime = s.ptime ∧ (s.jump x).nextLid = s.nextLid ∧ (s.jump x).lastStable = s.lastStable ∧
    (s.jump x).ptrs = s.ptrs ∧ (s.jump x).starving = s.starving ∧ (s.jump x).lq = s.lq ∧
    (s.jump x).appends = s.appends ∧ (s.jump x).loftmap = s.loftmap ∧ (s.jump x).launches = s.launches ∧
    (s.jump x).gangs = s.gangs ∧ (s.jump x).fetchReqs = s.fetchReqs ∧ (s.jump x).cfg = s.cfg ∧
    (s.jump x).evTail = s.evTail ∧ (s.jump x).evHead = s.evHead ∧ (s.jump x).evLost = s.evLost ∧
    (s.jump x).evSeq = s.evSeq ∧ (s.jump x).evWaiting = s.evWaiting ∧ (s.jump x).evRing = s.evRing ∧
    (s.jump x).preempt = s.preempt ∧ (s.jump x).own = s.own ∧ (s.jump x).ports = s.ports ∧
    (s.jump x).links = s.links ∧ (s.jump x).deadLinks = s.deadLinks ∧ (s.jump x).loader = s.loader ∧
    (s.jump x).att = s.att ∧ (s.jump x).fwTvec = s.fwTvec ∧ (s.jump x).gmem = s.gmem ∧ (s.jump x).poison = s.poison ∧
    (s.jump x).owners = s.owners ∧ (s.jump x).loft = s.loft ∧ (s.jump x).stalls = s.stalls ∧
    (s.jump x).stables = s.stables ∧ (s.jump x).barns = s.barns ∧ (s.jump x).yards = s.yards ∧
    (s.jump x).nextCmd = s.nextCmd ∧ (s.jump x).nextOp = s.nextOp ∧ (s.jump x).nextGang = s.nextGang ∧
    (s.jump x).nextReq = s.nextReq ∧ (s.jump x).agenda = s.agenda ∧ (s.jump x).cur = s.cur ∧
    (s.jump x).tried = s.tried ∧ (s.jump x).last = s.last ∧ (s.jump x).free = s.free ∧
    (s.jump x).readings = s.readings ∧ (s.jump x).heard = s.heard ∧
    (s.jump x).nextItem = s.nextItem ∧ (s.jump x).homes = s.homes :=
    ⟨rfl, rfl, rfl, rfl,
    rfl, rfl, rfl, rfl, rfl, rfl, rfl, rfl, rfl, rfl, rfl, rfl, rfl, rfl, rfl, rfl, rfl, rfl, rfl, rfl, rfl, rfl,
    rfl, rfl, rfl, rfl, rfl, rfl, rfl, rfl, rfl, rfl, rfl, rfl, rfl, rfl, rfl, rfl, rfl, rfl, rfl, rfl, rfl⟩

@[simp] theorem State.setGang_fields (s : State) (k : Nat) (g : Gang) :
    (s.setGang k g).ptime = s.ptime ∧ (s.setGang k g).nextLid = s.nextLid ∧
    (s.setGang k g).lastStable = s.lastStable ∧ (s.setGang k g).ptrs = s.ptrs ∧
    (s.setGang k g).starving = s.starving ∧ (s.setGang k g).lq = s.lq ∧ (s.setGang k g).appends = s.appends ∧
    (s.setGang k g).loftmap = s.loftmap ∧ (s.setGang k g).launches = s.launches ∧ (s.setGang k g).groups = s.groups ∧
    (s.setGang k g).fetchReqs = s.fetchReqs ∧ (s.setGang k g).cfg = s.cfg ∧ (s.setGang k g).evTail = s.evTail ∧
    (s.setGang k g).evHead = s.evHead ∧ (s.setGang k g).evLost = s.evLost ∧ (s.setGang k g).evSeq = s.evSeq ∧
    (s.setGang k g).evWaiting = s.evWaiting ∧ (s.setGang k g).evRing = s.evRing ∧
    (s.setGang k g).preempt = s.preempt ∧ (s.setGang k g).own = s.own ∧ (s.setGang k g).ports = s.ports ∧
    (s.setGang k g).links = s.links ∧ (s.setGang k g).deadLinks = s.deadLinks ∧ (s.setGang k g).loader = s.loader ∧
    (s.setGang k g).att = s.att ∧ (s.setGang k g).fwTvec = s.fwTvec ∧ (s.setGang k g).gmem = s.gmem ∧
    (s.setGang k g).poison = s.poison ∧ (s.setGang k g).owners = s.owners ∧ (s.setGang k g).loft = s.loft ∧
    (s.setGang k g).stalls = s.stalls ∧ (s.setGang k g).stables = s.stables ∧ (s.setGang k g).barns = s.barns ∧
    (s.setGang k g).yards = s.yards ∧ (s.setGang k g).nextCmd = s.nextCmd ∧ (s.setGang k g).nextOp = s.nextOp ∧
    (s.setGang k g).nextGang = s.nextGang ∧ (s.setGang k g).nextReq = s.nextReq ∧ (s.setGang k g).agenda = s.agenda ∧
    (s.setGang k g).cur = s.cur ∧ (s.setGang k g).tried = s.tried ∧ (s.setGang k g).last = s.last ∧
    (s.setGang k g).free = s.free ∧
    (s.setGang k g).readings = s.readings ∧ (s.setGang k g).heard = s.heard ∧
    (s.setGang k g).nextItem = s.nextItem ∧ (s.setGang k g).homes = s.homes :=
    ⟨rfl, rfl, rfl, rfl,
    rfl, rfl, rfl, rfl, rfl, rfl, rfl, rfl, rfl, rfl, rfl, rfl, rfl, rfl, rfl, rfl, rfl, rfl, rfl, rfl, rfl, rfl,
    rfl, rfl, rfl, rfl, rfl, rfl, rfl, rfl, rfl, rfl, rfl, rfl, rfl, rfl, rfl, rfl, rfl, rfl, rfl, rfl, rfl⟩

@[simp] theorem State.setStall_fields (s : State) (n : Nat) (x : Stall) :
    (s.setStall n x).ptime = s.ptime ∧ (s.setStall n x).nextLid = s.nextLid ∧
    (s.setStall n x).lastStable = s.lastStable ∧ (s.setStall n x).ptrs = s.ptrs ∧
    (s.setStall n x).starving = s.starving ∧ (s.setStall n x).lq = s.lq ∧ (s.setStall n x).appends = s.appends ∧
    (s.setStall n x).loftmap = s.loftmap ∧ (s.setStall n x).launches = s.launches ∧ (s.setStall n x).gangs = s.gangs ∧
    (s.setStall n x).groups = s.groups ∧ (s.setStall n x).fetchReqs = s.fetchReqs ∧ (s.setStall n x).cfg = s.cfg ∧
    (s.setStall n x).evTail = s.evTail ∧ (s.setStall n x).evHead = s.evHead ∧ (s.setStall n x).evLost = s.evLost ∧
    (s.setStall n x).evSeq = s.evSeq ∧ (s.setStall n x).evWaiting = s.evWaiting ∧ (s.setStall n x).evRing = s.evRing ∧
    (s.setStall n x).preempt = s.preempt ∧ (s.setStall n x).own = s.own ∧ (s.setStall n x).ports = s.ports ∧
    (s.setStall n x).links = s.links ∧ (s.setStall n x).deadLinks = s.deadLinks ∧ (s.setStall n x).loader = s.loader ∧
    (s.setStall n x).att = s.att ∧ (s.setStall n x).fwTvec = s.fwTvec ∧ (s.setStall n x).gmem = s.gmem ∧
    (s.setStall n x).poison = s.poison ∧ (s.setStall n x).owners = s.owners ∧ (s.setStall n x).loft = s.loft ∧
    (s.setStall n x).stables = s.stables ∧ (s.setStall n x).barns = s.barns ∧ (s.setStall n x).yards = s.yards ∧
    (s.setStall n x).nextCmd = s.nextCmd ∧ (s.setStall n x).nextOp = s.nextOp ∧
    (s.setStall n x).nextGang = s.nextGang ∧ (s.setStall n x).nextReq = s.nextReq ∧
    (s.setStall n x).agenda = s.agenda ∧ (s.setStall n x).cur = s.cur ∧ (s.setStall n x).tried = s.tried ∧
    (s.setStall n x).last = s.last ∧ (s.setStall n x).free = s.free ∧
    (s.setStall n x).readings = s.readings ∧ (s.setStall n x).heard = s.heard ∧
    (s.setStall n x).nextItem = s.nextItem ∧ (s.setStall n x).homes = s.homes :=
    ⟨rfl, rfl, rfl, rfl,
    rfl, rfl, rfl, rfl, rfl, rfl, rfl, rfl, rfl, rfl, rfl, rfl, rfl, rfl, rfl, rfl, rfl, rfl, rfl, rfl, rfl, rfl,
    rfl, rfl, rfl, rfl, rfl, rfl, rfl, rfl, rfl, rfl, rfl, rfl, rfl, rfl, rfl, rfl, rfl, rfl, rfl, rfl, rfl⟩

@[simp] theorem State.modStall_fields (s : State) (n : Nat) (f : Stall → Stall) :
    (s.modStall n f).ptime = s.ptime ∧ (s.modStall n f).nextLid = s.nextLid ∧
    (s.modStall n f).lastStable = s.lastStable ∧ (s.modStall n f).ptrs = s.ptrs ∧
    (s.modStall n f).starving = s.starving ∧ (s.modStall n f).lq = s.lq ∧ (s.modStall n f).appends = s.appends ∧
    (s.modStall n f).loftmap = s.loftmap ∧ (s.modStall n f).launches = s.launches ∧ (s.modStall n f).gangs = s.gangs ∧
    (s.modStall n f).groups = s.groups ∧ (s.modStall n f).fetchReqs = s.fetchReqs ∧ (s.modStall n f).cfg = s.cfg ∧
    (s.modStall n f).evTail = s.evTail ∧ (s.modStall n f).evHead = s.evHead ∧ (s.modStall n f).evLost = s.evLost ∧
    (s.modStall n f).evSeq = s.evSeq ∧ (s.modStall n f).evWaiting = s.evWaiting ∧ (s.modStall n f).evRing = s.evRing ∧
    (s.modStall n f).preempt = s.preempt ∧ (s.modStall n f).own = s.own ∧ (s.modStall n f).ports = s.ports ∧
    (s.modStall n f).links = s.links ∧ (s.modStall n f).deadLinks = s.deadLinks ∧ (s.modStall n f).loader = s.loader ∧
    (s.modStall n f).att = s.att ∧ (s.modStall n f).fwTvec = s.fwTvec ∧ (s.modStall n f).gmem = s.gmem ∧
    (s.modStall n f).poison = s.poison ∧ (s.modStall n f).owners = s.owners ∧ (s.modStall n f).loft = s.loft ∧
    (s.modStall n f).stables = s.stables ∧ (s.modStall n f).barns = s.barns ∧ (s.modStall n f).yards = s.yards ∧
    (s.modStall n f).nextCmd = s.nextCmd ∧ (s.modStall n f).nextOp = s.nextOp ∧
    (s.modStall n f).nextGang = s.nextGang ∧ (s.modStall n f).nextReq = s.nextReq ∧
    (s.modStall n f).agenda = s.agenda ∧ (s.modStall n f).cur = s.cur ∧ (s.modStall n f).tried = s.tried ∧
    (s.modStall n f).last = s.last ∧ (s.modStall n f).free = s.free ∧
    (s.modStall n f).readings = s.readings ∧ (s.modStall n f).heard = s.heard ∧
    (s.modStall n f).nextItem = s.nextItem ∧ (s.modStall n f).homes = s.homes :=
    ⟨rfl, rfl, rfl, rfl,
    rfl, rfl, rfl, rfl, rfl, rfl, rfl, rfl, rfl, rfl, rfl, rfl, rfl, rfl, rfl, rfl, rfl, rfl, rfl, rfl, rfl, rfl,
    rfl, rfl, rfl, rfl, rfl, rfl, rfl, rfl, rfl, rfl, rfl, rfl, rfl, rfl, rfl, rfl, rfl, rfl, rfl, rfl, rfl⟩

@[simp] theorem State.setStable_fields (s : State) (n : Nat) (x : Stable) :
    (s.setStable n x).ptime = s.ptime ∧ (s.setStable n x).nextLid = s.nextLid ∧
    (s.setStable n x).lastStable = s.lastStable ∧ (s.setStable n x).ptrs = s.ptrs ∧
    (s.setStable n x).starving = s.starving ∧ (s.setStable n x).lq = s.lq ∧ (s.setStable n x).appends = s.appends ∧
    (s.setStable n x).loftmap = s.loftmap ∧ (s.setStable n x).launches = s.launches ∧
    (s.setStable n x).gangs = s.gangs ∧ (s.setStable n x).groups = s.groups ∧
    (s.setStable n x).fetchReqs = s.fetchReqs ∧ (s.setStable n x).cfg = s.cfg ∧ (s.setStable n x).evTail = s.evTail ∧
    (s.setStable n x).evHead = s.evHead ∧ (s.setStable n x).evLost = s.evLost ∧ (s.setStable n x).evSeq = s.evSeq ∧
    (s.setStable n x).evWaiting = s.evWaiting ∧ (s.setStable n x).evRing = s.evRing ∧
    (s.setStable n x).preempt = s.preempt ∧ (s.setStable n x).own = s.own ∧ (s.setStable n x).ports = s.ports ∧
    (s.setStable n x).links = s.links ∧ (s.setStable n x).deadLinks = s.deadLinks ∧
    (s.setStable n x).loader = s.loader ∧ (s.setStable n x).att = s.att ∧ (s.setStable n x).fwTvec = s.fwTvec ∧
    (s.setStable n x).gmem = s.gmem ∧ (s.setStable n x).poison = s.poison ∧ (s.setStable n x).owners = s.owners ∧
    (s.setStable n x).loft = s.loft ∧ (s.setStable n x).stalls = s.stalls ∧ (s.setStable n x).barns = s.barns ∧
    (s.setStable n x).yards = s.yards ∧ (s.setStable n x).nextCmd = s.nextCmd ∧ (s.setStable n x).nextOp = s.nextOp ∧
    (s.setStable n x).nextGang = s.nextGang ∧ (s.setStable n x).nextReq = s.nextReq ∧
    (s.setStable n x).agenda = s.agenda ∧ (s.setStable n x).cur = s.cur ∧ (s.setStable n x).tried = s.tried ∧
    (s.setStable n x).last = s.last ∧ (s.setStable n x).free = s.free ∧
    (s.setStable n x).readings = s.readings ∧ (s.setStable n x).heard = s.heard ∧
    (s.setStable n x).nextItem = s.nextItem ∧ (s.setStable n x).homes = s.homes :=
    ⟨rfl, rfl, rfl, rfl,
    rfl, rfl, rfl, rfl, rfl, rfl, rfl, rfl, rfl, rfl, rfl, rfl, rfl, rfl, rfl, rfl, rfl, rfl, rfl, rfl, rfl, rfl,
    rfl, rfl, rfl, rfl, rfl, rfl, rfl, rfl, rfl, rfl, rfl, rfl, rfl, rfl, rfl, rfl, rfl, rfl, rfl, rfl, rfl⟩

@[simp] theorem State.modStable_fields (s : State) (n : Nat) (f : Stable → Stable) :
    (s.modStable n f).ptime = s.ptime ∧ (s.modStable n f).nextLid = s.nextLid ∧
    (s.modStable n f).lastStable = s.lastStable ∧ (s.modStable n f).ptrs = s.ptrs ∧
    (s.modStable n f).starving = s.starving ∧ (s.modStable n f).lq = s.lq ∧ (s.modStable n f).appends = s.appends ∧
    (s.modStable n f).loftmap = s.loftmap ∧ (s.modStable n f).launches = s.launches ∧
    (s.modStable n f).gangs = s.gangs ∧ (s.modStable n f).groups = s.groups ∧
    (s.modStable n f).fetchReqs = s.fetchReqs ∧ (s.modStable n f).cfg = s.cfg ∧ (s.modStable n f).evTail = s.evTail ∧
    (s.modStable n f).evHead = s.evHead ∧ (s.modStable n f).evLost = s.evLost ∧ (s.modStable n f).evSeq = s.evSeq ∧
    (s.modStable n f).evWaiting = s.evWaiting ∧ (s.modStable n f).evRing = s.evRing ∧
    (s.modStable n f).preempt = s.preempt ∧ (s.modStable n f).own = s.own ∧ (s.modStable n f).ports = s.ports ∧
    (s.modStable n f).links = s.links ∧ (s.modStable n f).deadLinks = s.deadLinks ∧
    (s.modStable n f).loader = s.loader ∧ (s.modStable n f).att = s.att ∧ (s.modStable n f).fwTvec = s.fwTvec ∧
    (s.modStable n f).gmem = s.gmem ∧ (s.modStable n f).poison = s.poison ∧ (s.modStable n f).owners = s.owners ∧
    (s.modStable n f).loft = s.loft ∧ (s.modStable n f).stalls = s.stalls ∧ (s.modStable n f).barns = s.barns ∧
    (s.modStable n f).yards = s.yards ∧ (s.modStable n f).nextCmd = s.nextCmd ∧ (s.modStable n f).nextOp = s.nextOp ∧
    (s.modStable n f).nextGang = s.nextGang ∧ (s.modStable n f).nextReq = s.nextReq ∧
    (s.modStable n f).agenda = s.agenda ∧ (s.modStable n f).cur = s.cur ∧ (s.modStable n f).tried = s.tried ∧
    (s.modStable n f).last = s.last ∧ (s.modStable n f).free = s.free ∧
    (s.modStable n f).readings = s.readings ∧ (s.modStable n f).heard = s.heard ∧
    (s.modStable n f).nextItem = s.nextItem ∧ (s.modStable n f).homes = s.homes :=
    ⟨rfl, rfl, rfl, rfl,
    rfl, rfl, rfl, rfl, rfl, rfl, rfl, rfl, rfl, rfl, rfl, rfl, rfl, rfl, rfl, rfl, rfl, rfl, rfl, rfl, rfl, rfl,
    rfl, rfl, rfl, rfl, rfl, rfl, rfl, rfl, rfl, rfl, rfl, rfl, rfl, rfl, rfl, rfl, rfl, rfl, rfl, rfl, rfl⟩

@[simp] theorem State.setBarn_fields (s : State) (n : Nat) (x : Barn) :
    (s.setBarn n x).ptime = s.ptime ∧ (s.setBarn n x).nextLid = s.nextLid ∧
    (s.setBarn n x).lastStable = s.lastStable ∧ (s.setBarn n x).ptrs = s.ptrs ∧
    (s.setBarn n x).starving = s.starving ∧ (s.setBarn n x).lq = s.lq ∧ (s.setBarn n x).appends = s.appends ∧
    (s.setBarn n x).loftmap = s.loftmap ∧ (s.setBarn n x).launches = s.launches ∧ (s.setBarn n x).gangs = s.gangs ∧
    (s.setBarn n x).groups = s.groups ∧ (s.setBarn n x).fetchReqs = s.fetchReqs ∧ (s.setBarn n x).cfg = s.cfg ∧
    (s.setBarn n x).evTail = s.evTail ∧ (s.setBarn n x).evHead = s.evHead ∧ (s.setBarn n x).evLost = s.evLost ∧
    (s.setBarn n x).evSeq = s.evSeq ∧ (s.setBarn n x).evWaiting = s.evWaiting ∧ (s.setBarn n x).evRing = s.evRing ∧
    (s.setBarn n x).preempt = s.preempt ∧ (s.setBarn n x).own = s.own ∧ (s.setBarn n x).ports = s.ports ∧
    (s.setBarn n x).links = s.links ∧ (s.setBarn n x).deadLinks = s.deadLinks ∧ (s.setBarn n x).loader = s.loader ∧
    (s.setBarn n x).att = s.att ∧ (s.setBarn n x).fwTvec = s.fwTvec ∧ (s.setBarn n x).gmem = s.gmem ∧
    (s.setBarn n x).poison = s.poison ∧ (s.setBarn n x).owners = s.owners ∧ (s.setBarn n x).loft = s.loft ∧
    (s.setBarn n x).stalls = s.stalls ∧ (s.setBarn n x).stables = s.stables ∧ (s.setBarn n x).yards = s.yards ∧
    (s.setBarn n x).nextCmd = s.nextCmd ∧ (s.setBarn n x).nextOp = s.nextOp ∧ (s.setBarn n x).nextGang = s.nextGang ∧
    (s.setBarn n x).nextReq = s.nextReq ∧ (s.setBarn n x).agenda = s.agenda ∧ (s.setBarn n x).cur = s.cur ∧
    (s.setBarn n x).tried = s.tried ∧ (s.setBarn n x).last = s.last ∧ (s.setBarn n x).free = s.free ∧
    (s.setBarn n x).readings = s.readings ∧ (s.setBarn n x).heard = s.heard ∧
    (s.setBarn n x).nextItem = s.nextItem ∧ (s.setBarn n x).homes = s.homes :=
    ⟨rfl, rfl, rfl, rfl,
    rfl, rfl, rfl, rfl, rfl, rfl, rfl, rfl, rfl, rfl, rfl, rfl, rfl, rfl, rfl, rfl, rfl, rfl, rfl, rfl, rfl, rfl,
    rfl, rfl, rfl, rfl, rfl, rfl, rfl, rfl, rfl, rfl, rfl, rfl, rfl, rfl, rfl, rfl, rfl, rfl, rfl, rfl, rfl⟩

@[simp] theorem State.setQueue_fields (s : State) (n : Nat) (x : LaunchQueue) :
    (s.setQueue n x).ptime = s.ptime ∧ (s.setQueue n x).nextLid = s.nextLid ∧
    (s.setQueue n x).lastStable = s.lastStable ∧ (s.setQueue n x).ptrs = s.ptrs ∧
    (s.setQueue n x).starving = s.starving ∧ (s.setQueue n x).appends = s.appends ∧
    (s.setQueue n x).loftmap = s.loftmap ∧ (s.setQueue n x).launches = s.launches ∧ (s.setQueue n x).gangs = s.gangs ∧
    (s.setQueue n x).groups = s.groups ∧ (s.setQueue n x).fetchReqs = s.fetchReqs ∧ (s.setQueue n x).cfg = s.cfg ∧
    (s.setQueue n x).evTail = s.evTail ∧ (s.setQueue n x).evHead = s.evHead ∧ (s.setQueue n x).evLost = s.evLost ∧
    (s.setQueue n x).evSeq = s.evSeq ∧ (s.setQueue n x).evWaiting = s.evWaiting ∧ (s.setQueue n x).evRing = s.evRing ∧
    (s.setQueue n x).preempt = s.preempt ∧ (s.setQueue n x).own = s.own ∧ (s.setQueue n x).ports = s.ports ∧
    (s.setQueue n x).links = s.links ∧ (s.setQueue n x).deadLinks = s.deadLinks ∧ (s.setQueue n x).loader = s.loader ∧
    (s.setQueue n x).att = s.att ∧ (s.setQueue n x).fwTvec = s.fwTvec ∧ (s.setQueue n x).gmem = s.gmem ∧
    (s.setQueue n x).poison = s.poison ∧ (s.setQueue n x).owners = s.owners ∧ (s.setQueue n x).loft = s.loft ∧
    (s.setQueue n x).stalls = s.stalls ∧ (s.setQueue n x).stables = s.stables ∧ (s.setQueue n x).barns = s.barns ∧
    (s.setQueue n x).yards = s.yards ∧ (s.setQueue n x).nextCmd = s.nextCmd ∧ (s.setQueue n x).nextOp = s.nextOp ∧
    (s.setQueue n x).nextGang = s.nextGang ∧ (s.setQueue n x).nextReq = s.nextReq ∧
    (s.setQueue n x).agenda = s.agenda ∧ (s.setQueue n x).cur = s.cur ∧ (s.setQueue n x).tried = s.tried ∧
    (s.setQueue n x).last = s.last ∧ (s.setQueue n x).free = s.free ∧
    (s.setQueue n x).readings = s.readings ∧ (s.setQueue n x).heard = s.heard ∧
    (s.setQueue n x).nextItem = s.nextItem ∧ (s.setQueue n x).homes = s.homes :=
    ⟨rfl, rfl, rfl, rfl,
    rfl, rfl, rfl, rfl, rfl, rfl, rfl, rfl, rfl, rfl, rfl, rfl, rfl, rfl, rfl, rfl, rfl, rfl, rfl, rfl, rfl, rfl,
    rfl, rfl, rfl, rfl, rfl, rfl, rfl, rfl, rfl, rfl, rfl, rfl, rfl, rfl, rfl, rfl, rfl, rfl, rfl, rfl, rfl⟩

@[simp] theorem State.setPort_fields (s : State) (n : Nat) (x : Port) :
    (s.setPort n x).ptime = s.ptime ∧ (s.setPort n x).nextLid = s.nextLid ∧
    (s.setPort n x).lastStable = s.lastStable ∧ (s.setPort n x).ptrs = s.ptrs ∧
    (s.setPort n x).starving = s.starving ∧ (s.setPort n x).lq = s.lq ∧ (s.setPort n x).appends = s.appends ∧
    (s.setPort n x).loftmap = s.loftmap ∧ (s.setPort n x).launches = s.launches ∧ (s.setPort n x).gangs = s.gangs ∧
    (s.setPort n x).groups = s.groups ∧ (s.setPort n x).fetchReqs = s.fetchReqs ∧ (s.setPort n x).cfg = s.cfg ∧
    (s.setPort n x).evTail = s.evTail ∧ (s.setPort n x).evHead = s.evHead ∧ (s.setPort n x).evLost = s.evLost ∧
    (s.setPort n x).evSeq = s.evSeq ∧ (s.setPort n x).evWaiting = s.evWaiting ∧ (s.setPort n x).evRing = s.evRing ∧
    (s.setPort n x).preempt = s.preempt ∧ (s.setPort n x).own = s.own ∧ (s.setPort n x).links = s.links ∧
    (s.setPort n x).deadLinks = s.deadLinks ∧ (s.setPort n x).loader = s.loader ∧ (s.setPort n x).att = s.att ∧
    (s.setPort n x).fwTvec = s.fwTvec ∧ (s.setPort n x).gmem = s.gmem ∧ (s.setPort n x).poison = s.poison ∧
    (s.setPort n x).owners = s.owners ∧ (s.setPort n x).loft = s.loft ∧ (s.setPort n x).stalls = s.stalls ∧
    (s.setPort n x).stables = s.stables ∧ (s.setPort n x).barns = s.barns ∧ (s.setPort n x).yards = s.yards ∧
    (s.setPort n x).nextCmd = s.nextCmd ∧ (s.setPort n x).nextOp = s.nextOp ∧ (s.setPort n x).nextGang = s.nextGang ∧
    (s.setPort n x).nextReq = s.nextReq ∧ (s.setPort n x).agenda = s.agenda ∧ (s.setPort n x).cur = s.cur ∧
    (s.setPort n x).tried = s.tried ∧ (s.setPort n x).last = s.last ∧ (s.setPort n x).free = s.free ∧
    (s.setPort n x).readings = s.readings ∧ (s.setPort n x).heard = s.heard ∧
    (s.setPort n x).nextItem = s.nextItem ∧ (s.setPort n x).homes = s.homes :=
    ⟨rfl, rfl, rfl, rfl,
    rfl, rfl, rfl, rfl, rfl, rfl, rfl, rfl, rfl, rfl, rfl, rfl, rfl, rfl, rfl, rfl, rfl, rfl, rfl, rfl, rfl, rfl,
    rfl, rfl, rfl, rfl, rfl, rfl, rfl, rfl, rfl, rfl, rfl, rfl, rfl, rfl, rfl, rfl, rfl, rfl, rfl, rfl, rfl⟩

@[simp] theorem State.setLink_fields (s : State) (n : Nat) (x : PLink) :
    (s.setLink n x).ptime = s.ptime ∧ (s.setLink n x).nextLid = s.nextLid ∧
    (s.setLink n x).lastStable = s.lastStable ∧ (s.setLink n x).ptrs = s.ptrs ∧
    (s.setLink n x).starving = s.starving ∧ (s.setLink n x).lq = s.lq ∧ (s.setLink n x).appends = s.appends ∧
    (s.setLink n x).loftmap = s.loftmap ∧ (s.setLink n x).launches = s.launches ∧ (s.setLink n x).gangs = s.gangs ∧
    (s.setLink n x).groups = s.groups ∧ (s.setLink n x).fetchReqs = s.fetchReqs ∧ (s.setLink n x).cfg = s.cfg ∧
    (s.setLink n x).evTail = s.evTail ∧ (s.setLink n x).evHead = s.evHead ∧ (s.setLink n x).evLost = s.evLost ∧
    (s.setLink n x).evSeq = s.evSeq ∧ (s.setLink n x).evWaiting = s.evWaiting ∧ (s.setLink n x).evRing = s.evRing ∧
    (s.setLink n x).preempt = s.preempt ∧ (s.setLink n x).own = s.own ∧ (s.setLink n x).ports = s.ports ∧
    (s.setLink n x).deadLinks = s.deadLinks ∧ (s.setLink n x).loader = s.loader ∧ (s.setLink n x).att = s.att ∧
    (s.setLink n x).fwTvec = s.fwTvec ∧ (s.setLink n x).gmem = s.gmem ∧ (s.setLink n x).poison = s.poison ∧
    (s.setLink n x).owners = s.owners ∧ (s.setLink n x).loft = s.loft ∧ (s.setLink n x).stalls = s.stalls ∧
    (s.setLink n x).stables = s.stables ∧ (s.setLink n x).barns = s.barns ∧ (s.setLink n x).yards = s.yards ∧
    (s.setLink n x).nextCmd = s.nextCmd ∧ (s.setLink n x).nextOp = s.nextOp ∧ (s.setLink n x).nextGang = s.nextGang ∧
    (s.setLink n x).nextReq = s.nextReq ∧ (s.setLink n x).agenda = s.agenda ∧ (s.setLink n x).cur = s.cur ∧
    (s.setLink n x).tried = s.tried ∧ (s.setLink n x).last = s.last ∧ (s.setLink n x).free = s.free ∧
    (s.setLink n x).readings = s.readings ∧ (s.setLink n x).heard = s.heard ∧
    (s.setLink n x).nextItem = s.nextItem ∧ (s.setLink n x).homes = s.homes :=
    ⟨rfl, rfl, rfl, rfl,
    rfl, rfl, rfl, rfl, rfl, rfl, rfl, rfl, rfl, rfl, rfl, rfl, rfl, rfl, rfl, rfl, rfl, rfl, rfl, rfl, rfl, rfl,
    rfl, rfl, rfl, rfl, rfl, rfl, rfl, rfl, rfl, rfl, rfl, rfl, rfl, rfl, rfl, rfl, rfl, rfl, rfl, rfl, rfl⟩

@[simp] theorem State.setYard_fields (s : State) (n : Nat) (x : Yard) :
    (s.setYard n x).ptime = s.ptime ∧ (s.setYard n x).nextLid = s.nextLid ∧
    (s.setYard n x).lastStable = s.lastStable ∧ (s.setYard n x).ptrs = s.ptrs ∧
    (s.setYard n x).starving = s.starving ∧ (s.setYard n x).lq = s.lq ∧ (s.setYard n x).appends = s.appends ∧
    (s.setYard n x).loftmap = s.loftmap ∧ (s.setYard n x).launches = s.launches ∧ (s.setYard n x).gangs = s.gangs ∧
    (s.setYard n x).groups = s.groups ∧ (s.setYard n x).fetchReqs = s.fetchReqs ∧ (s.setYard n x).cfg = s.cfg ∧
    (s.setYard n x).evTail = s.evTail ∧ (s.setYard n x).evHead = s.evHead ∧ (s.setYard n x).evLost = s.evLost ∧
    (s.setYard n x).evSeq = s.evSeq ∧ (s.setYard n x).evWaiting = s.evWaiting ∧ (s.setYard n x).evRing = s.evRing ∧
    (s.setYard n x).preempt = s.preempt ∧ (s.setYard n x).own = s.own ∧ (s.setYard n x).ports = s.ports ∧
    (s.setYard n x).links = s.links ∧ (s.setYard n x).deadLinks = s.deadLinks ∧ (s.setYard n x).loader = s.loader ∧
    (s.setYard n x).att = s.att ∧ (s.setYard n x).fwTvec = s.fwTvec ∧ (s.setYard n x).gmem = s.gmem ∧
    (s.setYard n x).poison = s.poison ∧ (s.setYard n x).owners = s.owners ∧ (s.setYard n x).loft = s.loft ∧
    (s.setYard n x).stalls = s.stalls ∧ (s.setYard n x).stables = s.stables ∧ (s.setYard n x).barns = s.barns ∧
    (s.setYard n x).nextCmd = s.nextCmd ∧ (s.setYard n x).nextOp = s.nextOp ∧ (s.setYard n x).nextGang = s.nextGang ∧
    (s.setYard n x).nextReq = s.nextReq ∧ (s.setYard n x).agenda = s.agenda ∧ (s.setYard n x).cur = s.cur ∧
    (s.setYard n x).tried = s.tried ∧ (s.setYard n x).last = s.last ∧ (s.setYard n x).free = s.free ∧
    (s.setYard n x).readings = s.readings ∧ (s.setYard n x).heard = s.heard ∧
    (s.setYard n x).nextItem = s.nextItem ∧ (s.setYard n x).homes = s.homes :=
    ⟨rfl, rfl, rfl, rfl,
    rfl, rfl, rfl, rfl, rfl, rfl, rfl, rfl, rfl, rfl, rfl, rfl, rfl, rfl, rfl, rfl, rfl, rfl, rfl, rfl, rfl, rfl,
    rfl, rfl, rfl, rfl, rfl, rfl, rfl, rfl, rfl, rfl, rfl, rfl, rfl, rfl, rfl, rfl, rfl, rfl, rfl, rfl, rfl⟩

@[simp] theorem State.retire_fields (s : State) :
    (s.retire).ptime = s.ptime ∧ (s.retire).nextLid = s.nextLid ∧ (s.retire).lastStable = s.lastStable ∧
    (s.retire).ptrs = s.ptrs ∧ (s.retire).starving = s.starving ∧ (s.retire).lq = s.lq ∧
    (s.retire).appends = s.appends ∧ (s.retire).loftmap = s.loftmap ∧ (s.retire).launches = s.launches ∧
    (s.retire).gangs = s.gangs ∧ (s.retire).fetchReqs = s.fetchReqs ∧ (s.retire).cfg = s.cfg ∧
    (s.retire).evTail = s.evTail ∧ (s.retire).evHead = s.evHead ∧ (s.retire).evLost = s.evLost ∧
    (s.retire).evSeq = s.evSeq ∧ (s.retire).evWaiting = s.evWaiting ∧ (s.retire).evRing = s.evRing ∧
    (s.retire).preempt = s.preempt ∧ (s.retire).own = s.own ∧ (s.retire).ports = s.ports ∧
    (s.retire).links = s.links ∧ (s.retire).deadLinks = s.deadLinks ∧ (s.retire).loader = s.loader ∧
    (s.retire).att = s.att ∧ (s.retire).fwTvec = s.fwTvec ∧ (s.retire).gmem = s.gmem ∧ (s.retire).poison = s.poison ∧
    (s.retire).owners = s.owners ∧ (s.retire).loft = s.loft ∧ (s.retire).stalls = s.stalls ∧
    (s.retire).stables = s.stables ∧ (s.retire).barns = s.barns ∧ (s.retire).yards = s.yards ∧
    (s.retire).nextCmd = s.nextCmd ∧ (s.retire).nextOp = s.nextOp ∧ (s.retire).nextGang = s.nextGang ∧
    (s.retire).nextReq = s.nextReq ∧ (s.retire).agenda = s.agenda ∧ (s.retire).cur = s.cur ∧ (s.retire).free = s.free ∧
    (s.retire).readings = s.readings ∧ (s.retire).heard = s.heard ∧
    (s.retire).nextItem = s.nextItem ∧ (s.retire).homes = s.homes :=
    ⟨rfl, rfl, rfl, rfl,
    rfl, rfl, rfl, rfl, rfl, rfl, rfl, rfl, rfl, rfl, rfl, rfl, rfl, rfl, rfl, rfl, rfl, rfl, rfl, rfl, rfl, rfl,
    rfl, rfl, rfl, rfl, rfl, rfl, rfl, rfl, rfl, rfl, rfl, rfl, rfl, rfl, rfl, rfl, rfl, rfl, rfl⟩

@[simp] theorem State.hold_fields (s : State) (w : Option Wake) (b : Bool) :
    (s.hold w b).ptime = s.ptime ∧ (s.hold w b).nextLid = s.nextLid ∧ (s.hold w b).lastStable = s.lastStable ∧
    (s.hold w b).ptrs = s.ptrs ∧ (s.hold w b).starving = s.starving ∧ (s.hold w b).lq = s.lq ∧
    (s.hold w b).appends = s.appends ∧ (s.hold w b).loftmap = s.loftmap ∧ (s.hold w b).launches = s.launches ∧
    (s.hold w b).gangs = s.gangs ∧ (s.hold w b).fetchReqs = s.fetchReqs ∧ (s.hold w b).cfg = s.cfg ∧
    (s.hold w b).evTail = s.evTail ∧ (s.hold w b).evHead = s.evHead ∧ (s.hold w b).evLost = s.evLost ∧
    (s.hold w b).evSeq = s.evSeq ∧ (s.hold w b).evWaiting = s.evWaiting ∧ (s.hold w b).evRing = s.evRing ∧
    (s.hold w b).preempt = s.preempt ∧ (s.hold w b).own = s.own ∧ (s.hold w b).ports = s.ports ∧
    (s.hold w b).links = s.links ∧ (s.hold w b).deadLinks = s.deadLinks ∧ (s.hold w b).loader = s.loader ∧
    (s.hold w b).att = s.att ∧ (s.hold w b).fwTvec = s.fwTvec ∧ (s.hold w b).gmem = s.gmem ∧
    (s.hold w b).poison = s.poison ∧ (s.hold w b).owners = s.owners ∧ (s.hold w b).loft = s.loft ∧
    (s.hold w b).stalls = s.stalls ∧ (s.hold w b).stables = s.stables ∧ (s.hold w b).barns = s.barns ∧
    (s.hold w b).yards = s.yards ∧ (s.hold w b).nextCmd = s.nextCmd ∧ (s.hold w b).nextOp = s.nextOp ∧
    (s.hold w b).nextGang = s.nextGang ∧ (s.hold w b).nextReq = s.nextReq ∧ (s.hold w b).agenda = s.agenda ∧
    (s.hold w b).cur = s.cur ∧ (s.hold w b).free = s.free ∧
    (s.hold w b).readings = s.readings ∧ (s.hold w b).heard = s.heard ∧
    (s.hold w b).nextItem = s.nextItem ∧ (s.hold w b).homes = s.homes :=
    ⟨rfl, rfl, rfl, rfl,
    rfl, rfl, rfl, rfl, rfl, rfl, rfl, rfl, rfl, rfl, rfl, rfl, rfl, rfl, rfl, rfl, rfl, rfl, rfl, rfl, rfl, rfl,
    rfl, rfl, rfl, rfl, rfl, rfl, rfl, rfl, rfl, rfl, rfl, rfl, rfl, rfl, rfl, rfl, rfl, rfl, rfl⟩

@[simp] theorem State.enterHandler_fields (s : State) (t : Trap) (h : Word) :
    (s.enterHandler t h).ptime = s.ptime ∧ (s.enterHandler t h).nextLid = s.nextLid ∧
    (s.enterHandler t h).lastStable = s.lastStable ∧ (s.enterHandler t h).ptrs = s.ptrs ∧
    (s.enterHandler t h).starving = s.starving ∧ (s.enterHandler t h).lq = s.lq ∧
    (s.enterHandler t h).appends = s.appends ∧ (s.enterHandler t h).loftmap = s.loftmap ∧
    (s.enterHandler t h).launches = s.launches ∧ (s.enterHandler t h).gangs = s.gangs ∧
    (s.enterHandler t h).fetchReqs = s.fetchReqs ∧ (s.enterHandler t h).cfg = s.cfg ∧
    (s.enterHandler t h).evTail = s.evTail ∧ (s.enterHandler t h).evHead = s.evHead ∧
    (s.enterHandler t h).evLost = s.evLost ∧ (s.enterHandler t h).evSeq = s.evSeq ∧
    (s.enterHandler t h).evWaiting = s.evWaiting ∧ (s.enterHandler t h).evRing = s.evRing ∧
    (s.enterHandler t h).preempt = s.preempt ∧ (s.enterHandler t h).own = s.own ∧
    (s.enterHandler t h).ports = s.ports ∧ (s.enterHandler t h).links = s.links ∧
    (s.enterHandler t h).deadLinks = s.deadLinks ∧ (s.enterHandler t h).loader = s.loader ∧
    (s.enterHandler t h).att = s.att ∧ (s.enterHandler t h).fwTvec = s.fwTvec ∧ (s.enterHandler t h).gmem = s.gmem ∧
    (s.enterHandler t h).poison = s.poison ∧ (s.enterHandler t h).owners = s.owners ∧
    (s.enterHandler t h).loft = s.loft ∧ (s.enterHandler t h).stalls = s.stalls ∧
    (s.enterHandler t h).stables = s.stables ∧ (s.enterHandler t h).barns = s.barns ∧
    (s.enterHandler t h).yards = s.yards ∧ (s.enterHandler t h).nextCmd = s.nextCmd ∧
    (s.enterHandler t h).nextOp = s.nextOp ∧ (s.enterHandler t h).nextGang = s.nextGang ∧
    (s.enterHandler t h).nextReq = s.nextReq ∧ (s.enterHandler t h).agenda = s.agenda ∧
    (s.enterHandler t h).cur = s.cur ∧ (s.enterHandler t h).tried = s.tried ∧ (s.enterHandler t h).last = s.last ∧
    (s.enterHandler t h).free = s.free ∧
    (s.enterHandler t h).readings = s.readings ∧ (s.enterHandler t h).heard = s.heard ∧
    (s.enterHandler t h).nextItem = s.nextItem ∧ (s.enterHandler t h).homes = s.homes :=
    ⟨rfl, rfl, rfl, rfl,
    rfl, rfl, rfl, rfl, rfl, rfl, rfl, rfl, rfl, rfl, rfl, rfl, rfl, rfl, rfl, rfl, rfl, rfl, rfl, rfl, rfl, rfl,
    rfl, rfl, rfl, rfl, rfl, rfl, rfl, rfl, rfl, rfl, rfl, rfl, rfl, rfl, rfl, rfl, rfl, rfl, rfl, rfl, rfl⟩

@[simp] theorem State.modGroup_fields (s : State) (k : Nat) (f : Group → Group) :
    (s.modGroup k f).ptime = s.ptime ∧ (s.modGroup k f).nextLid = s.nextLid ∧
    (s.modGroup k f).lastStable = s.lastStable ∧ (s.modGroup k f).ptrs = s.ptrs ∧
    (s.modGroup k f).starving = s.starving ∧ (s.modGroup k f).lq = s.lq ∧ (s.modGroup k f).appends = s.appends ∧
    (s.modGroup k f).loftmap = s.loftmap ∧ (s.modGroup k f).launches = s.launches ∧ (s.modGroup k f).gangs = s.gangs ∧
    (s.modGroup k f).fetchReqs = s.fetchReqs ∧ (s.modGroup k f).cfg = s.cfg ∧ (s.modGroup k f).evTail = s.evTail ∧
    (s.modGroup k f).evHead = s.evHead ∧ (s.modGroup k f).evLost = s.evLost ∧ (s.modGroup k f).evSeq = s.evSeq ∧
    (s.modGroup k f).evWaiting = s.evWaiting ∧ (s.modGroup k f).evRing = s.evRing ∧
    (s.modGroup k f).preempt = s.preempt ∧ (s.modGroup k f).own = s.own ∧ (s.modGroup k f).ports = s.ports ∧
    (s.modGroup k f).links = s.links ∧ (s.modGroup k f).deadLinks = s.deadLinks ∧ (s.modGroup k f).loader = s.loader ∧
    (s.modGroup k f).att = s.att ∧ (s.modGroup k f).fwTvec = s.fwTvec ∧ (s.modGroup k f).gmem = s.gmem ∧
    (s.modGroup k f).poison = s.poison ∧ (s.modGroup k f).owners = s.owners ∧ (s.modGroup k f).loft = s.loft ∧
    (s.modGroup k f).stalls = s.stalls ∧ (s.modGroup k f).stables = s.stables ∧ (s.modGroup k f).barns = s.barns ∧
    (s.modGroup k f).yards = s.yards ∧ (s.modGroup k f).nextCmd = s.nextCmd ∧ (s.modGroup k f).nextOp = s.nextOp ∧
    (s.modGroup k f).nextGang = s.nextGang ∧ (s.modGroup k f).nextReq = s.nextReq ∧
    (s.modGroup k f).agenda = s.agenda ∧ (s.modGroup k f).cur = s.cur ∧ (s.modGroup k f).tried = s.tried ∧
    (s.modGroup k f).last = s.last ∧ (s.modGroup k f).free = s.free ∧
    (s.modGroup k f).readings = s.readings ∧ (s.modGroup k f).heard = s.heard ∧
    (s.modGroup k f).nextItem = s.nextItem ∧ (s.modGroup k f).homes = s.homes := by
  unfold State.modGroup; split <;> simp

@[simp] theorem State.modGang_fields (s : State) (k : Nat) (f : Gang → Gang) :
    (s.modGang k f).ptime = s.ptime ∧ (s.modGang k f).nextLid = s.nextLid ∧
    (s.modGang k f).lastStable = s.lastStable ∧ (s.modGang k f).ptrs = s.ptrs ∧
    (s.modGang k f).starving = s.starving ∧ (s.modGang k f).lq = s.lq ∧ (s.modGang k f).appends = s.appends ∧
    (s.modGang k f).loftmap = s.loftmap ∧ (s.modGang k f).launches = s.launches ∧ (s.modGang k f).groups = s.groups ∧
    (s.modGang k f).fetchReqs = s.fetchReqs ∧ (s.modGang k f).cfg = s.cfg ∧ (s.modGang k f).evTail = s.evTail ∧
    (s.modGang k f).evHead = s.evHead ∧ (s.modGang k f).evLost = s.evLost ∧ (s.modGang k f).evSeq = s.evSeq ∧
    (s.modGang k f).evWaiting = s.evWaiting ∧ (s.modGang k f).evRing = s.evRing ∧
    (s.modGang k f).preempt = s.preempt ∧ (s.modGang k f).own = s.own ∧ (s.modGang k f).ports = s.ports ∧
    (s.modGang k f).links = s.links ∧ (s.modGang k f).deadLinks = s.deadLinks ∧ (s.modGang k f).loader = s.loader ∧
    (s.modGang k f).att = s.att ∧ (s.modGang k f).fwTvec = s.fwTvec ∧ (s.modGang k f).gmem = s.gmem ∧
    (s.modGang k f).poison = s.poison ∧ (s.modGang k f).owners = s.owners ∧ (s.modGang k f).loft = s.loft ∧
    (s.modGang k f).stalls = s.stalls ∧ (s.modGang k f).stables = s.stables ∧ (s.modGang k f).barns = s.barns ∧
    (s.modGang k f).yards = s.yards ∧ (s.modGang k f).nextCmd = s.nextCmd ∧ (s.modGang k f).nextOp = s.nextOp ∧
    (s.modGang k f).nextGang = s.nextGang ∧ (s.modGang k f).nextReq = s.nextReq ∧ (s.modGang k f).agenda = s.agenda ∧
    (s.modGang k f).cur = s.cur ∧ (s.modGang k f).tried = s.tried ∧ (s.modGang k f).last = s.last ∧
    (s.modGang k f).free = s.free ∧
    (s.modGang k f).readings = s.readings ∧ (s.modGang k f).heard = s.heard ∧
    (s.modGang k f).nextItem = s.nextItem ∧ (s.modGang k f).homes = s.homes := by
  unfold State.modGang; split <;> simp

/-! ### Registers -/

@[simp] theorem Regs.setV_fields (r : Regs) (n l : Nat) (x : Lane) :
    (r.setV n l x).pc = r.pc ∧ (r.setV n l x).sup = r.sup ∧ (r.setV n l x).serial = r.serial ∧
    (r.setV n l x).s = r.s ∧ (r.setV n l x).exm = r.exm ∧ (r.setV n l x).lpart = r.lpart ∧
    (r.setV n l x).flmask = r.flmask ∧ (r.setV n l x).tcause = r.tcause ∧ (r.setV n l x).taddr = r.taddr ∧
    (r.setV n l x).tpc = r.tpc ∧ (r.setV n l x).launchId = r.launchId ∧ (r.setV n l x).taskId = r.taskId ∧
    (r.setV n l x).depth = r.depth ∧ (r.setV n l x).await = r.await ∧ (r.setV n l x).rngKey0 = r.rngKey0 ∧
    (r.setV n l x).rngKey1 = r.rngKey1 ∧ (r.setV n l x).mcap = r.mcap ∧ (r.setV n l x).batchOpen = r.batchOpen ∧
    (r.setV n l x).batchDone = r.batchDone ∧ (r.setV n l x).psn = r.psn ∧ (r.setV n l x).ovf = r.ovf ∧
    (r.setV n l x).balepa = r.balepa ∧ (r.setV n l x).stintno = r.stintno ∧ (r.setV n l x).yctx = r.yctx ∧
    (r.setV n l x).tvec = r.tvec ∧ (r.setV n l x).epc = r.epc ∧ (r.setV n l x).estat = r.estat ∧
    (r.setV n l x).sscr0 = r.sscr0 ∧ (r.setV n l x).sscr1 = r.sscr1 ∧ (r.setV n l x).trapAt = r.trapAt :=
    ⟨rfl, rfl, rfl, rfl, rfl, rfl, rfl, rfl, rfl, rfl, rfl, rfl, rfl, rfl, rfl, rfl, rfl, rfl, rfl, rfl, rfl, rfl,
    rfl, rfl, rfl, rfl, rfl, rfl, rfl, rfl⟩

@[simp] theorem Regs.setS_fields (r : Regs) (n : Nat) (x : Word) :
    (r.setS n x).pc = r.pc ∧ (r.setS n x).sup = r.sup ∧ (r.setS n x).serial = r.serial ∧ (r.setS n x).v = r.v ∧
    (r.setS n x).exm = r.exm ∧ (r.setS n x).lpart = r.lpart ∧ (r.setS n x).flmask = r.flmask ∧
    (r.setS n x).tcause = r.tcause ∧ (r.setS n x).taddr = r.taddr ∧ (r.setS n x).tpc = r.tpc ∧
    (r.setS n x).launchId = r.launchId ∧ (r.setS n x).taskId = r.taskId ∧ (r.setS n x).depth = r.depth ∧
    (r.setS n x).await = r.await ∧ (r.setS n x).rngKey0 = r.rngKey0 ∧ (r.setS n x).rngKey1 = r.rngKey1 ∧
    (r.setS n x).mcap = r.mcap ∧ (r.setS n x).batchOpen = r.batchOpen ∧ (r.setS n x).batchDone = r.batchDone ∧
    (r.setS n x).psn = r.psn ∧ (r.setS n x).ovf = r.ovf ∧ (r.setS n x).balepa = r.balepa ∧
    (r.setS n x).stintno = r.stintno ∧ (r.setS n x).yctx = r.yctx ∧ (r.setS n x).tvec = r.tvec ∧
    (r.setS n x).epc = r.epc ∧ (r.setS n x).estat = r.estat ∧ (r.setS n x).sscr0 = r.sscr0 ∧
    (r.setS n x).sscr1 = r.sscr1 ∧ (r.setS n x).trapAt = r.trapAt := by
  unfold Regs.setS; split <;> simp

@[simp] theorem Regs.setDst_fields (r : Regs) (d : Opnd) (x : Word) :
    (r.setDst d x).pc = r.pc ∧ (r.setDst d x).sup = r.sup ∧ (r.setDst d x).serial = r.serial ∧
    (r.setDst d x).v = r.v ∧ (r.setDst d x).exm = r.exm ∧ (r.setDst d x).lpart = r.lpart ∧
    (r.setDst d x).flmask = r.flmask ∧ (r.setDst d x).tcause = r.tcause ∧ (r.setDst d x).taddr = r.taddr ∧
    (r.setDst d x).tpc = r.tpc ∧ (r.setDst d x).launchId = r.launchId ∧ (r.setDst d x).taskId = r.taskId ∧
    (r.setDst d x).depth = r.depth ∧ (r.setDst d x).await = r.await ∧ (r.setDst d x).rngKey0 = r.rngKey0 ∧
    (r.setDst d x).rngKey1 = r.rngKey1 ∧ (r.setDst d x).mcap = r.mcap ∧ (r.setDst d x).batchOpen = r.batchOpen ∧
    (r.setDst d x).batchDone = r.batchDone ∧ (r.setDst d x).psn = r.psn ∧ (r.setDst d x).ovf = r.ovf ∧
    (r.setDst d x).balepa = r.balepa ∧ (r.setDst d x).stintno = r.stintno ∧ (r.setDst d x).yctx = r.yctx ∧
    (r.setDst d x).tvec = r.tvec ∧ (r.setDst d x).epc = r.epc ∧ (r.setDst d x).estat = r.estat ∧
    (r.setDst d x).sscr0 = r.sscr0 ∧ (r.setDst d x).sscr1 = r.sscr1 ∧ (r.setDst d x).trapAt = r.trapAt := by
  simp [Regs.setDst]

@[simp] theorem Regs.setVV_fields (r : Regs) (n l : Nat) (x : Word) :
    (r.setVV n l x).pc = r.pc ∧ (r.setVV n l x).sup = r.sup ∧ (r.setVV n l x).serial = r.serial ∧
    (r.setVV n l x).s = r.s ∧ (r.setVV n l x).exm = r.exm ∧ (r.setVV n l x).lpart = r.lpart ∧
    (r.setVV n l x).flmask = r.flmask ∧ (r.setVV n l x).tcause = r.tcause ∧ (r.setVV n l x).taddr = r.taddr ∧
    (r.setVV n l x).tpc = r.tpc ∧ (r.setVV n l x).launchId = r.launchId ∧ (r.setVV n l x).taskId = r.taskId ∧
    (r.setVV n l x).depth = r.depth ∧ (r.setVV n l x).await = r.await ∧ (r.setVV n l x).rngKey0 = r.rngKey0 ∧
    (r.setVV n l x).rngKey1 = r.rngKey1 ∧ (r.setVV n l x).mcap = r.mcap ∧ (r.setVV n l x).batchOpen = r.batchOpen ∧
    (r.setVV n l x).batchDone = r.batchDone ∧ (r.setVV n l x).psn = r.psn ∧ (r.setVV n l x).ovf = r.ovf ∧
    (r.setVV n l x).balepa = r.balepa ∧ (r.setVV n l x).stintno = r.stintno ∧ (r.setVV n l x).yctx = r.yctx ∧
    (r.setVV n l x).tvec = r.tvec ∧ (r.setVV n l x).epc = r.epc ∧ (r.setVV n l x).estat = r.estat ∧
    (r.setVV n l x).sscr0 = r.sscr0 ∧ (r.setVV n l x).sscr1 = r.sscr1 ∧ (r.setVV n l x).trapAt = r.trapAt := by
  simp [Regs.setVV]

@[simp] theorem Regs.setLane_fields (r : Regs) (t : ETy) (d : Opnd) (l x : Nat) :
    (r.setLane t d l x).pc = r.pc ∧ (r.setLane t d l x).sup = r.sup ∧ (r.setLane t d l x).serial = r.serial ∧
    (r.setLane t d l x).s = r.s ∧ (r.setLane t d l x).exm = r.exm ∧ (r.setLane t d l x).lpart = r.lpart ∧
    (r.setLane t d l x).flmask = r.flmask ∧ (r.setLane t d l x).tcause = r.tcause ∧
    (r.setLane t d l x).taddr = r.taddr ∧ (r.setLane t d l x).tpc = r.tpc ∧
    (r.setLane t d l x).launchId = r.launchId ∧ (r.setLane t d l x).taskId = r.taskId ∧
    (r.setLane t d l x).depth = r.depth ∧ (r.setLane t d l x).await = r.await ∧
    (r.setLane t d l x).rngKey0 = r.rngKey0 ∧ (r.setLane t d l x).rngKey1 = r.rngKey1 ∧
    (r.setLane t d l x).mcap = r.mcap ∧ (r.setLane t d l x).batchOpen = r.batchOpen ∧
    (r.setLane t d l x).batchDone = r.batchDone ∧ (r.setLane t d l x).psn = r.psn ∧ (r.setLane t d l x).ovf = r.ovf ∧
    (r.setLane t d l x).balepa = r.balepa ∧ (r.setLane t d l x).stintno = r.stintno ∧
    (r.setLane t d l x).yctx = r.yctx ∧ (r.setLane t d l x).tvec = r.tvec ∧ (r.setLane t d l x).epc = r.epc ∧
    (r.setLane t d l x).estat = r.estat ∧ (r.setLane t d l x).sscr0 = r.sscr0 ∧ (r.setLane t d l x).sscr1 = r.sscr1 ∧
    (r.setLane t d l x).trapAt = r.trapAt := by
  unfold Regs.setLane; split <;> simp

/-! ### Reading what was written -/

@[simp] theorem State.group?_setGroup_self (s : State) (k : Nat) (g : Group) : (s.setGroup k g).group? k = some g :=
  kfind_kinsert_self s.groups k g

theorem State.group?_setGroup_ne (s : State) (g : Group) {k j : Nat} (h : j ≠ k) :
    (s.setGroup k g).group? j = s.group? j :=
  kfind_kinsert_ne s.groups g h

@[simp] theorem State.group_setGroup_self (s : State) (k : Nat) (g : Group) : (s.setGroup k g).group k = g := by
  simp [State.group, State.setGroup]

theorem State.group_setGroup_ne (s : State) (g : Group) {k j : Nat} (h : j ≠ k) :
    (s.setGroup k g).group j = s.group j := by
  simp [State.group, State.setGroup, kfind_kinsert_ne _ _ h]

@[simp] theorem State.me_setMe (s : State) (g : Group) : (s.setMe g).me = g := by
  simp [State.me, State.setMe]

@[simp] theorem State.me_modMe (s : State) (f : Group → Group) : (s.modMe f).me = f s.me := by
  simp [State.modMe]

@[simp] theorem State.regs_setRegs (s : State) (r : Regs) : (s.setRegs r).regs = r := by
  simp [State.setRegs, State.regs]

theorem State.me_of_group? {s : State} {g : Group} (h : s.group? s.cur = some g) : s.me = g := by
  simp only [State.group?] at h
  simp [State.me, State.group, h]

theorem State.group?_setMe (s : State) (g : Group) : (s.setMe g).group? s.cur = some g :=
  State.group?_setGroup_self s s.cur g

theorem State.gang_setGang_self (s : State) (k : Nat) (g : Gang) : (s.setGang k g).gang k = g := by
  simp [State.gang, State.setGang]

theorem State.gang_setGang_ne (s : State) (g : Gang) {k j : Nat} (h : j ≠ k) : (s.setGang k g).gang j = s.gang j := by
  simp [State.gang, State.setGang, kfind_kinsert_ne _ _ h]

/-- Writing a group twice leaves the second. -/
theorem kinsert_kinsert_self {V : Type} (m : KMap V) (a : Nat) (x y : V) :
    kinsert (kinsert m a x) a y = kinsert m a y := by
  induction m with
  | nil => simp [kinsert]
  | cons p m ih =>
    obtain ⟨k, v⟩ := p
    by_cases hk : k = a
    · simp [kinsert, hk]
    · by_cases ha : a < k <;> simp [kinsert, hk, ha, ih]

@[simp] theorem State.setGroup_setGroup (s : State) (k : Nat) (g h : Group) :
    (s.setGroup k g).setGroup k h = s.setGroup k h := by
  simp [State.setGroup, kinsert_kinsert_self]

@[simp] theorem State.setMe_setMe (s : State) (g h : Group) : (s.setMe g).setMe h = s.setMe h := by
  simp [State.setMe]

theorem State.modMe_of {s : State} {g : Group} (h : s.me = g) (f : Group → Group) : s.modMe f = s.setMe (f g) := by
  simp [State.modMe, h]

/-! ### Scalar registers -/

/-- s0 reads as zero (R73). -/
@[simp] theorem Regs.getS_zero (r : Regs) : r.getS 0 = 0 := rfl

/-- A write to s0 is discarded (R73). -/
@[simp] theorem Regs.setS_zero (r : Regs) (x : Word) : r.setS 0 x = r := rfl

theorem Regs.getS_setS_self {r : Regs} {n : Nat} {x : Word} (hn : n ≠ 0) (h : kwf 0 r.s) : (r.setS n x).getS n = x := by
  simp only [Regs.setS, Regs.getS, hn, if_false]
  exact kget_kset_self 0 h

theorem Regs.getS_setS_ne {r : Regs} {n m : Nat} {x : Word} (h : kwf 0 r.s) (hm : m ≠ n) :
    (r.setS n x).getS m = r.getS m := by
  by_cases hn : n = 0
  · simp [hn]
  · by_cases hz : m = 0
    · simp [hz]
    · simp only [Regs.setS, Regs.getS, hn, hz, if_false]
      exact kget_kset_ne 0 h hm

/-! ### Vector registers -/

theorem Regs.getV_setV_self {r : Regs} {n l : Nat} {x : Lane} (h : kwf 0 r.v) : (r.setV n l x).getV n l = x :=
  kget_kset_self 0 h

theorem Regs.getV_setV_ne {r : Regs} {n l m k : Nat} {x : Lane} (h : kwf 0 r.v) (hk : 32 * m + k ≠ 32 * n + l) :
    (r.setV n l x).getV m k = r.getV m k :=
  kget_kset_ne 0 h hk

theorem Regs.wf_setV {r : Regs} {n l : Nat} {x : Lane} (h : kwf 0 r.v) : kwf 0 (r.setV n l x).v := kwf_kset 0 h

end Sys2Proof.Machine
end

