-- ==== Sys2Proof/Laws/Issue.lean ====
section
/-!
SUPPORT. What the issue of an instruction can do: it stops, waits, traps or retires, and which of these its core decides.
-/

namespace Sys2Proof.Machine

/-- A ready instruction is settled as its core says. -/
theorem issueLogged_ready {i : Instr} {s : State} {g : Group} (core : State → Eff) (h : Ready i s g) :
    issueLogged i core s = .next (s.settle (isSvc i) (core s)) := by
  have hme := State.me_of_group? h.here
  simp [issueLogged, issue, h.here, h.place, admission, h.allowed, h.legal, h.budget, h.free, diverges, hme, h.live]

/-- An instruction's issue answers a next state wherever a group stands at `cur`. -/
theorem issueLogged_next {i : Instr} {s : State} {g : Group} (core : State → Eff) (h : s.group? s.cur = some g) :
    ∃ t, issueLogged i core s = .next t := by
  simp only [issueLogged, issue, h]
  cases (if placeOk i s.cur then admission i g else trapNow .illegalOp) <;> exact ⟨_, rfl⟩

/-- A retirement leaves what the core left, with the group past its instruction. -/
theorem settle_ok {s s' : State} {g' : Group} (b : Bool) (h : s'.group? s'.cur = some g') :
    s.settle b (.ok s') = s'.retiredAs g' g'.r := by
  have hme := State.me_of_group? h
  simp [State.settle, State.retire, State.modMe, State.retiredAs, State.setMe, hme, State.setGroup]

/-- A ready instruction whose core completes retires with what the core left. -/
theorem issueLogged_ok {i : Instr} {s s' : State} {g g' : Group} {core : State → Eff} (h : Ready i s g)
    (hc : core s = .ok s') (h' : s'.group? s'.cur = some g') : issueLogged i core s = .next (s'.retiredAs g' g'.r) := by
  rw [issueLogged_ready core h, hc, settle_ok _ h']

/-- A core that only writes registers leaves the state retired with them. -/
theorem settle_setRegs {s : State} {g : Group} {b : Bool} {r : Regs} (h : s.group? s.cur = some g) :
    s.settle b (.ok (s.setRegs r)) = s.retiredAs g r := by
  have hme := State.me_of_group? h
  simp [State.settle, State.retire, State.setRegs, State.modMe, State.retiredAs, State.setMe, hme]
  simp [State.setGroup, State.me, State.group]

/-- A ready instruction whose core only writes registers. -/
theorem issueLogged_setRegs {i : Instr} {s : State} {g : Group} {core : State → Eff} {r : Regs} (h : Ready i s g)
    (hc : core s = .ok (s.setRegs r)) : issueLogged i core s = .next (s.retiredAs g r) := by
  rw [issueLogged_ready core h, hc, settle_setRegs h.here]

/-- A ready instruction whose core traps takes the exception. -/
theorem issueLogged_trap {i : Instr} {s : State} {g : Group} {core : State → Eff} {t : Trap} (h : Ready i s g)
    (hc : core s = .error (.trap t)) : issueLogged i core s = .next (s.takeException (isSvc i) t) := by
  rw [issueLogged_ready core h, hc]; rfl

/-- A ready instruction whose core waits holds its group. -/
theorem issueLogged_hold {i : Instr} {s : State} {g : Group} {core : State → Eff} {w : Option Wake} (h : Ready i s g)
    (hc : core s = .error (.hold w)) : issueLogged i core s = .next (s.hold w false) := by
  rw [issueLogged_ready core h, hc]; rfl

theorem State.regs_of_group? {s : State} {g : Group} (h : s.group? s.cur = some g) : s.regs = g.r := by
  rw [State.regs, State.me_of_group? h]

end Sys2Proof.Machine
end

