-- ==== Sys2Proof/Laws/Parity.lean ====
section
/-!
SUPPORT. Reconstruction gives back what a stack held (R103).
-/

namespace Sys2Proof.Machine

theorem xorBytes_cons (b : Byte) (l : List Byte) : xorBytes (b :: l) = b ^^^ xorBytes l := by
  have h : ∀ (l : List Byte) (a : Byte), l.foldl (· ^^^ ·) a = a ^^^ l.foldl (· ^^^ ·) 0 := by
    intro l
    induction l with
    | nil => simp
    | cons x l ih => intro a; rw [List.foldl_cons, List.foldl_cons, ih, ih (0 ^^^ x)]; simp [BitVec.xor_assoc]
  rw [xorBytes, List.foldl_cons, h]
  simp [xorBytes]

/-- In a list that holds an element once, the exclusive or over all of it and that over the others give the element's share. -/
theorem xorBytes_others (f : Nat → Byte) (b : Nat) :
    ∀ l : List Nat, l.Nodup →
      xorBytes (l.map f) ^^^ xorBytes ((l.filter (· != b)).map f) = if b ∈ l then f b else 0
  | [], _ => by simp [xorBytes]
  | c :: l, h => by
    have hn := List.nodup_cons.mp h
    have ih := xorBytes_others f b l hn.2
    by_cases hc : c = b
    · subst hc
      have hf : l.filter (· != c) = l :=
        List.filter_eq_self.mpr fun x hx => bne_iff_ne.mpr fun e => hn.1 (e ▸ hx)
      rw [List.map_cons, xorBytes_cons, List.filter_cons_of_neg (by simp), hf]
      rw [BitVec.xor_assoc, BitVec.xor_self]
      simp
    · rw [List.map_cons, xorBytes_cons, List.filter_cons_of_pos (by simpa using hc), List.map_cons, xorBytes_cons]
      have hm : (b ∈ c :: l) = (b ∈ l) := by simp [Ne.symm hc]
      simp only [hm, ← ih]
      generalize xorBytes (l.map f) = p
      generalize xorBytes ((l.filter (· != b)).map f) = q
      rw [BitVec.xor_assoc, ← BitVec.xor_assoc p, BitVec.xor_comm p, BitVec.xor_assoc, ← BitVec.xor_assoc (f c),
        BitVec.xor_self, BitVec.zero_xor]

/-- A byte of a lost barn is rebuilt from parity and the 7 other barns of its ring (R103). -/
theorem State.rebuiltByte_eq (s : State) (b x : Nat) : s.rebuiltByte b x = s.stackByte b x := by
  have hl : ringBarns (b / 8) = (List.range 8).map fun i => b / 8 * 8 + i := by
    simp [ringBarns, Nat.mul_comm]
  have hn : ((List.range 8).map fun i => b / 8 * 8 + i).Nodup :=
    List.Pairwise.map _ (fun i j h e => h (by simpa using e)) List.nodup_range
  have hb : b ∈ (List.range 8).map fun i => b / 8 * 8 + i :=
    List.mem_map.mpr ⟨b % 8, List.mem_range.mpr (Nat.mod_lt _ (by decide)), by omega⟩
  rw [State.rebuiltByte, State.parityByte, hl, ringOthers, xorBytes_others (fun c => s.stackByte c x) b _ hn, if_pos hb]

end Sys2Proof.Machine
end

