-- ==== Sys2Proof/Laws/PerInstr.lean ====
section
/-!
SUPPORT. One statement per instruction: an encoded instruction's opcode lies in its field's range, and the opcode map holds
at that place a mnemonic of the same opcode with the same slot (R255, R263); an event of the panel has no opcode.
-/

namespace Sys2Proof.Laws.Opcode

def Statement (i : Instr) : Prop := ∀ f o, i.encoded = some (f, o) →
  f.major < 256 ∧ f.minor < 64 ∧ ∃ mk, (majorRow f.major)[f.minor]? = some mk ∧
    ∃ f', (mk o).encoded = some (f', o) ∧ f'.major = f.major ∧ f'.minor = f.minor

/-- An instruction whose row is found. -/
theorem of_row {i : Instr} {f : Form} {o : Slot} (mk : Slot → Instr) (he : i.encoded = some (f, o))
    (hm : f.major < 256 ∧ f.minor < 64) (hr : (majorRow f.major)[f.minor]? = some mk)
    (h : (mk o).encoded.map (fun p => (p.1.major, p.1.minor, p.2)) = some (f.major, f.minor, o)) : Statement i := by
  intro f1 o1 h1
  obtain ⟨rfl, rfl⟩ := Prod.mk.inj (Option.some.inj (he.symm.trans h1))
  refine ⟨hm.1, hm.2, mk, hr, ?_⟩
  cases hp : (mk o).encoded with
  | none => simp [hp] at h
  | some p => simp [hp] at h; exact ⟨p.1, by rw [← h.2.2], h.1, h.2.1⟩

/-- An event has no opcode. -/
theorem of_event {i : Instr} (h : i.encoded = none) : Statement i := by
  intro f o h1; rw [h] at h1; cases h1

theorem nop (o : Slot) : Statement (.nop o) := of_row .nop rfl (by decide) rfl rfl
theorem brk (o : Slot) : Statement (.brk o) := of_row .brk rfl (by decide) rfl rfl
theorem add (o : Slot) : Statement (.add o) := of_row .add rfl (by decide) rfl rfl
theorem sub (o : Slot) : Statement (.sub o) := of_row .sub rfl (by decide) rfl rfl
theorem mul (o : Slot) : Statement (.mul o) := of_row .mul rfl (by decide) rfl rfl
theorem mulh (o : Slot) : Statement (.mulh o) := of_row .mulh rfl (by decide) rfl rfl
theorem mulhn (o : Slot) : Statement (.mulhn o) := of_row .mulhn rfl (by decide) rfl rfl
theorem div (o : Slot) : Statement (.div o) := of_row .div rfl (by decide) rfl rfl
theorem divn (o : Slot) : Statement (.divn o) := of_row .divn rfl (by decide) rfl rfl
theorem rem (o : Slot) : Statement (.rem o) := of_row .rem rfl (by decide) rfl rfl
theorem remn (o : Slot) : Statement (.remn o) := of_row .remn rfl (by decide) rfl rfl
theorem min (o : Slot) : Statement (.min o) := of_row .min rfl (by decide) rfl rfl
theorem max (o : Slot) : Statement (.max o) := of_row .max rfl (by decide) rfl rfl
theorem minn (o : Slot) : Statement (.minn o) := of_row .minn rfl (by decide) rfl rfl
theorem maxn (o : Slot) : Statement (.maxn o) := of_row .maxn rfl (by decide) rfl rfl
theorem and (o : Slot) : Statement (.and o) := of_row .and rfl (by decide) rfl rfl
theorem or (o : Slot) : Statement (.or o) := of_row .or rfl (by decide) rfl rfl
theorem xor (o : Slot) : Statement (.xor o) := of_row .xor rfl (by decide) rfl rfl
theorem andn (o : Slot) : Statement (.andn o) := of_row .andn rfl (by decide) rfl rfl
theorem shl (o : Slot) : Statement (.shl o) := of_row .shl rfl (by decide) rfl rfl
theorem shr (o : Slot) : Statement (.shr o) := of_row .shr rfl (by decide) rfl rfl
theorem sar (o : Slot) : Statement (.sar o) := of_row .sar rfl (by decide) rfl rfl
theorem rol (o : Slot) : Statement (.rol o) := of_row .rol rfl (by decide) rfl rfl
theorem ror (o : Slot) : Statement (.ror o) := of_row .ror rfl (by decide) rfl rfl
theorem clz (o : Slot) : Statement (.clz o) := of_row .clz rfl (by decide) rfl rfl
theorem ctz (o : Slot) : Statement (.ctz o) := of_row .ctz rfl (by decide) rfl rfl
theorem popc (o : Slot) : Statement (.popc o) := of_row .popc rfl (by decide) rfl rfl
theorem brev (o : Slot) : Statement (.brev o) := of_row .brev rfl (by decide) rfl rfl
theorem bfx (o : Slot) : Statement (.bfx o) := of_row .bfx rfl (by decide) rfl rfl
theorem bfxs (o : Slot) : Statement (.bfxs o) := of_row .bfxs rfl (by decide) rfl rfl
theorem bfi (o : Slot) : Statement (.bfi o) := of_row .bfi rfl (by decide) rfl rfl
theorem sel (o : Slot) : Statement (.sel o) := of_row .sel rfl (by decide) rfl rfl
theorem cmp (o : Slot) : Statement (.cmp o) := of_row .cmp rfl (by decide) rfl rfl
theorem lea (o : Slot) : Statement (.lea o) := of_row .lea rfl (by decide) rfl rfl
theorem movi (o : Slot) : Statement (.movi o) := of_row .movi rfl (by decide) rfl rfl
theorem mov (o : Slot) : Statement (.mov o) := of_row .mov rfl (by decide) rfl rfl
theorem srd (o : Slot) : Statement (.srd o) := of_row .srd rfl (by decide) rfl rfl
theorem swr (o : Slot) : Statement (.swr o) := of_row .swr rfl (by decide) rfl rfl
theorem mblk (o : Slot) : Statement (.mblk o) := of_row .mblk rfl (by decide) rfl rfl
theorem part (o : Slot) : Statement (.part o) := of_row .part rfl (by decide) rfl rfl
theorem serb (o : Slot) : Statement (.serb o) := of_row .serb rfl (by decide) rfl rfl
theorem sere (o : Slot) : Statement (.sere o) := of_row .sere rfl (by decide) rfl rfl
theorem br (o : Slot) : Statement (.br o) := of_row .br rfl (by decide) rfl rfl
theorem brc (o : Slot) : Statement (.brc o) := of_row .brc rfl (by decide) rfl rfl
theorem jmp (o : Slot) : Statement (.jmp o) := of_row .jmp rfl (by decide) rfl rfl
theorem call (o : Slot) : Statement (.call o) := of_row .call rfl (by decide) rfl rfl
theorem calli (o : Slot) : Statement (.calli o) := of_row .calli rfl (by decide) rfl rfl
theorem ret (o : Slot) : Statement (.ret o) := of_row .ret rfl (by decide) rfl rfl
theorem trap (o : Slot) : Statement (.trap o) := of_row .trap rfl (by decide) rfl rfl
theorem eret (o : Slot) : Statement (.eret o) := of_row .eret rfl (by decide) rfl rfl
theorem gtime (o : Slot) : Statement (.gtime o) := of_row .gtime rfl (by decide) rfl rfl
theorem ltime (o : Slot) : Statement (.ltime o) := of_row .ltime rfl (by decide) rfl rfl
theorem ifence (o : Slot) : Statement (.ifence o) := of_row .ifence rfl (by decide) rfl rfl
theorem svc (o : Slot) : Statement (.svc o) := of_row .svc rfl (by decide) rfl rfl
theorem fadd (o : Slot) : Statement (.fadd o) := of_row .fadd rfl (by decide) rfl rfl
theorem fsub (o : Slot) : Statement (.fsub o) := of_row .fsub rfl (by decide) rfl rfl
theorem fmul (o : Slot) : Statement (.fmul o) := of_row .fmul rfl (by decide) rfl rfl
theorem fma (o : Slot) : Statement (.fma o) := of_row .fma rfl (by decide) rfl rfl
theorem fmin (o : Slot) : Statement (.fmin o) := of_row .fmin rfl (by decide) rfl rfl
theorem fmax (o : Slot) : Statement (.fmax o) := of_row .fmax rfl (by decide) rfl rfl
theorem fcmp (o : Slot) : Statement (.fcmp o) := of_row .fcmp rfl (by decide) rfl rfl
theorem fclass (o : Slot) : Statement (.fclass o) := of_row .fclass rfl (by decide) rfl rfl
theorem frint (o : Slot) : Statement (.frint o) := of_row .frint rfl (by decide) rfl rfl
theorem frcp (o : Slot) : Statement (.frcp o) := of_row .frcp rfl (by decide) rfl rfl
theorem frsq (o : Slot) : Statement (.frsq o) := of_row .frsq rfl (by decide) rfl rfl
theorem fsqrt (o : Slot) : Statement (.fsqrt o) := of_row .fsqrt rfl (by decide) rfl rfl
theorem fexp2 (o : Slot) : Statement (.fexp2 o) := of_row .fexp2 rfl (by decide) rfl rfl
theorem flog2 (o : Slot) : Statement (.flog2 o) := of_row .flog2 rfl (by decide) rfl rfl
theorem fsinp (o : Slot) : Statement (.fsinp o) := of_row .fsinp rfl (by decide) rfl rfl
theorem fcosp (o : Slot) : Statement (.fcosp o) := of_row .fcosp rfl (by decide) rfl rfl
theorem hadd2 (o : Slot) : Statement (.hadd2 o) := of_row .hadd2 rfl (by decide) rfl rfl
theorem hmul2 (o : Slot) : Statement (.hmul2 o) := of_row .hmul2 rfl (by decide) rfl rfl
theorem hfma2 (o : Slot) : Statement (.hfma2 o) := of_row .hfma2 rfl (by decide) rfl rfl
theorem hmin2 (o : Slot) : Statement (.hmin2 o) := of_row .hmin2 rfl (by decide) rfl rfl
theorem hmax2 (o : Slot) : Statement (.hmax2 o) := of_row .hmax2 rfl (by decide) rfl rfl
theorem hcmp2 (o : Slot) : Statement (.hcmp2 o) := of_row .hcmp2 rfl (by decide) rfl rfl
theorem vadd (o : Slot) : Statement (.vadd o) := of_row .vadd rfl (by decide) rfl rfl
theorem vsub (o : Slot) : Statement (.vsub o) := of_row .vsub rfl (by decide) rfl rfl
theorem vmul (o : Slot) : Statement (.vmul o) := of_row .vmul rfl (by decide) rfl rfl
theorem vmulh (o : Slot) : Statement (.vmulh o) := of_row .vmulh rfl (by decide) rfl rfl
theorem vmad (o : Slot) : Statement (.vmad o) := of_row .vmad rfl (by decide) rfl rfl
theorem vmin (o : Slot) : Statement (.vmin o) := of_row .vmin rfl (by decide) rfl rfl
theorem vmax (o : Slot) : Statement (.vmax o) := of_row .vmax rfl (by decide) rfl rfl
theorem vand (o : Slot) : Statement (.vand o) := of_row .vand rfl (by decide) rfl rfl
theorem vor (o : Slot) : Statement (.vor o) := of_row .vor rfl (by decide) rfl rfl
theorem vxor (o : Slot) : Statement (.vxor o) := of_row .vxor rfl (by decide) rfl rfl
theorem vshl (o : Slot) : Statement (.vshl o) := of_row .vshl rfl (by decide) rfl rfl
theorem vshr (o : Slot) : Statement (.vshr o) := of_row .vshr rfl (by decide) rfl rfl
theorem vsar (o : Slot) : Statement (.vsar o) := of_row .vsar rfl (by decide) rfl rfl
theorem vcmp (o : Slot) : Statement (.vcmp o) := of_row .vcmp rfl (by decide) rfl rfl
theorem vsel (o : Slot) : Statement (.vsel o) := of_row .vsel rfl (by decide) rfl rfl
theorem vadds (o : Slot) : Statement (.vadds o) := of_row .vadds rfl (by decide) rfl rfl
theorem vclz (o : Slot) : Statement (.vclz o) := of_row .vclz rfl (by decide) rfl rfl
theorem vctz (o : Slot) : Statement (.vctz o) := of_row .vctz rfl (by decide) rfl rfl
theorem vffs (o : Slot) : Statement (.vffs o) := of_row .vffs rfl (by decide) rfl rfl
theorem vpopc (o : Slot) : Statement (.vpopc o) := of_row .vpopc rfl (by decide) rfl rfl
theorem vbrev (o : Slot) : Statement (.vbrev o) := of_row .vbrev rfl (by decide) rfl rfl
theorem vbfx (o : Slot) : Statement (.vbfx o) := of_row .vbfx rfl (by decide) rfl rfl
theorem vbfi (o : Slot) : Statement (.vbfi o) := of_row .vbfi rfl (by decide) rfl rfl
theorem cvt (o : Slot) : Statement (.cvt o) := of_row .cvt rfl (by decide) rfl rfl
theorem cvtd (o : Slot) : Statement (.cvtd o) := of_row .cvtd rfl (by decide) rfl rfl
theorem vscale (o : Slot) : Statement (.vscale o) := of_row .vscale rfl (by decide) rfl rfl
theorem shfl (o : Slot) : Statement (.shfl o) := of_row .shfl rfl (by decide) rfl rfl
theorem shflx (o : Slot) : Statement (.shflx o) := of_row .shflx rfl (by decide) rfl rfl
theorem shflup (o : Slot) : Statement (.shflup o) := of_row .shflup rfl (by decide) rfl rfl
theorem shfldn (o : Slot) : Statement (.shfldn o) := of_row .shfldn rfl (by decide) rfl rfl
theorem gshf (o : Slot) : Statement (.gshf o) := of_row .gshf rfl (by decide) rfl rfl
theorem vbcast (o : Slot) : Statement (.vbcast o) := of_row .vbcast rfl (by decide) rfl rfl
theorem vlane (o : Slot) : Statement (.vlane o) := of_row .vlane rfl (by decide) rfl rfl
theorem vidx (o : Slot) : Statement (.vidx o) := of_row .vidx rfl (by decide) rfl rfl
theorem voteany (o : Slot) : Statement (.voteany o) := of_row .voteany rfl (by decide) rfl rfl
theorem voteall (o : Slot) : Statement (.voteall o) := of_row .voteall rfl (by decide) rfl rfl
theorem ballot (o : Slot) : Statement (.ballot o) := of_row .ballot rfl (by decide) rfl rfl
theorem redadd (o : Slot) : Statement (.redadd o) := of_row .redadd rfl (by decide) rfl rfl
theorem redfadd (o : Slot) : Statement (.redfadd o) := of_row .redfadd rfl (by decide) rfl rfl
theorem redmin (o : Slot) : Statement (.redmin o) := of_row .redmin rfl (by decide) rfl rfl
theorem redmax (o : Slot) : Statement (.redmax o) := of_row .redmax rfl (by decide) rfl rfl
theorem scanadd (o : Slot) : Statement (.scanadd o) := of_row .scanadd rfl (by decide) rfl rfl
theorem scanfadd (o : Slot) : Statement (.scanfadd o) := of_row .scanfadd rfl (by decide) rfl rfl
theorem matchLanes (o : Slot) : Statement (.matchLanes o) := of_row .matchLanes rfl (by decide) rfl rfl
theorem ldG (o : Slot) : Statement (.ldG o) := of_row .ldG rfl (by decide) rfl rfl
theorem ldL (o : Slot) : Statement (.ldL o) := of_row .ldL rfl (by decide) rfl rfl
theorem ldF (o : Slot) : Statement (.ldF o) := of_row .ldF rfl (by decide) rfl rfl
theorem ldR (o : Slot) : Statement (.ldR o) := of_row .ldR rfl (by decide) rfl rfl
theorem lds (o : Slot) : Statement (.lds o) := of_row .lds rfl (by decide) rfl rfl
theorem ldline (o : Slot) : Statement (.ldline o) := of_row .ldline rfl (by decide) rfl rfl
theorem stG (o : Slot) : Statement (.stG o) := of_row .stG rfl (by decide) rfl rfl
theorem stL (o : Slot) : Statement (.stL o) := of_row .stL rfl (by decide) rfl rfl
theorem stR (o : Slot) : Statement (.stR o) := of_row .stR rfl (by decide) rfl rfl
theorem stRCnt (o : Slot) : Statement (.stRCnt o) := of_row .stR rfl (by decide) rfl rfl
theorem sts (o : Slot) : Statement (.sts o) := of_row .sts rfl (by decide) rfl rfl
theorem atomG (o : Slot) : Statement (.atomG o) := of_row .atomG rfl (by decide) rfl rfl
theorem atomL (o : Slot) : Statement (.atomL o) := of_row .atomL rfl (by decide) rfl rfl
theorem atomR (o : Slot) : Statement (.atomR o) := of_row .atomR rfl (by decide) rfl rfl
theorem acq (o : Slot) : Statement (.acq o) := of_row .acq rfl (by decide) rfl rfl
theorem rel (o : Slot) : Statement (.rel o) := of_row .rel rfl (by decide) rfl rfl
theorem fence (o : Slot) : Statement (.fence o) := of_row .fence rfl (by decide) rfl rfl
theorem claim (o : Slot) : Statement (.claim o) := of_row .claim rfl (by decide) rfl rfl
theorem volld (o : Slot) : Statement (.volld o) := of_row .volld rfl (by decide) rfl rfl
theorem volst (o : Slot) : Statement (.volst o) := of_row .volst rfl (by decide) rfl rfl
theorem volinv (o : Slot) : Statement (.volinv o) := of_row .volinv rfl (by decide) rfl rfl
theorem cart (o : Slot) : Statement (.cart o) := of_row .cart rfl (by decide) rfl rfl
theorem cartg (o : Slot) : Statement (.cartg o) := of_row .cartg rfl (by decide) rfl rfl
theorem twaitany (o : Slot) : Statement (.twaitany o) := of_row .twaitany rfl (by decide) rfl rfl
theorem twaitall (o : Slot) : Statement (.twaitall o) := of_row .twaitall rfl (by decide) rfl rfl
theorem tffs (o : Slot) : Statement (.tffs o) := of_row .tffs rfl (by decide) rfl rfl
theorem waitc (o : Slot) : Statement (.waitc o) := of_row .waitc rfl (by decide) rfl rfl
theorem binit (o : Slot) : Statement (.binit o) := of_row .binit rfl (by decide) rfl rfl
theorem barr (o : Slot) : Statement (.barr o) := of_row .barr rfl (by decide) rfl rfl
theorem barrRemote (o : Slot) : Statement (.barrRemote o) := of_row .barr rfl (by decide) rfl rfl
theorem bwait (o : Slot) : Statement (.bwait o) := of_row .bwait rfl (by decide) rfl rfl
theorem btest (o : Slot) : Statement (.btest o) := of_row .btest rfl (by decide) rfl rfl
theorem bale (o : Slot) : Statement (.bale o) := of_row .bale rfl (by decide) rfl rfl
theorem plz (o : Slot) : Statement (.plz o) := of_row .plz rfl (by decide) rfl rfl
theorem mloop (o : Slot) : Statement (.mloop o) := of_row .mloop rfl (by decide) rfl rfl
theorem mfence (o : Slot) : Statement (.mfence o) := of_row .mfence rfl (by decide) rfl rfl
theorem mwait (o : Slot) : Statement (.mwait o) := of_row .mwait rfl (by decide) rfl rfl
theorem mdrain (o : Slot) : Statement (.mdrain o) := of_row .mdrain rfl (by decide) rfl rfl
theorem mclr (o : Slot) : Statement (.mclr o) := of_row .mclr rfl (by decide) rfl rfl
theorem actld (o : Slot) : Statement (.actld o) := of_row .actld rfl (by decide) rfl rfl
theorem scacc (o : Slot) : Statement (.scacc o) := of_row .scacc rfl (by decide) rfl rfl
theorem draw (o : Slot) : Statement (.draw o) := of_row .draw rfl (by decide) rfl rfl
theorem rsupd (o : Slot) : Statement (.rsupd o) := of_row .rsupd rfl (by decide) rfl rfl
theorem rsmrg (o : Slot) : Statement (.rsmrg o) := of_row .rsmrg rfl (by decide) rfl rfl
theorem rsnrm (o : Slot) : Statement (.rsnrm o) := of_row .rsnrm rfl (by decide) rfl rfl
theorem rsld (o : Slot) : Statement (.rsld o) := of_row .rsld rfl (by decide) rfl rfl
theorem rsst (o : Slot) : Statement (.rsst o) := of_row .rsst rfl (by decide) rfl rfl
theorem rayq (o : Slot) : Statement (.rayq o) := of_row .rayq rfl (by decide) rfl rfl
theorem rayv (o : Slot) : Statement (.rayv o) := of_row .rayv rfl (by decide) rfl rfl
theorem ltree (o : Slot) : Statement (.ltree o) := of_row .ltree rfl (by decide) rfl rfl
theorem tcall (o : Slot) : Statement (.tcall o) := of_row .tcall rfl (by decide) rfl rfl
theorem tret (o : Slot) : Statement (.tret o) := of_row .tret rfl (by decide) rfl rfl
theorem groom (o : Slot) : Statement (.groom o) := of_row .groom rfl (by decide) rfl rfl
theorem launch (o : Slot) : Statement (.launch o) := of_row .launch rfl (by decide) rfl rfl
theorem gbar (o : Slot) : Statement (.gbar o) := of_row .gbar rfl (by decide) rfl rfl
theorem stint (o : Slot) : Statement (.stint o) := of_row .stint rfl (by decide) rfl rfl
theorem exit (o : Slot) : Statement (.exit o) := of_row .exit rfl (by decide) rfl rfl
theorem fetchw (o : Slot) : Statement (.fetchw o) := of_row .fetchw rfl (by decide) rfl rfl
theorem spawn (o : Slot) : Statement (.spawn o) := of_row .spawn rfl (by decide) rfl rfl
theorem spawnIndirect (o : Slot) : Statement (.spawnIndirect o) := of_row .spawn rfl (by decide) rfl rfl
theorem lrefill (o : Slot) : Statement (.lrefill o) := of_row .lrefill rfl (by decide) rfl rfl
theorem task (o : Slot) : Statement (.task o) := of_row .task rfl (by decide) rfl rfl
theorem taskRun (o : Slot) : Statement (.taskRun o) := of_row .task rfl (by decide) rfl rfl
theorem fwait (o : Slot) : Statement (.fwait o) := of_row .fwait rfl (by decide) rfl rfl
theorem fset (o : Slot) : Statement (.fset o) := of_row .fset rfl (by decide) rfl rfl
theorem lock (o : Slot) : Statement (.lock o) := of_row .lock rfl (by decide) rfl rfl
theorem unlock (o : Slot) : Statement (.unlock o) := of_row .unlock rfl (by decide) rfl rfl
theorem enq (o : Slot) : Statement (.enq o) := of_row .enq rfl (by decide) rfl rfl
theorem deq (o : Slot) : Statement (.deq o) := of_row .deq rfl (by decide) rfl rfl
theorem qwait (o : Slot) : Statement (.qwait o) := of_row .qwait rfl (by decide) rfl rfl
theorem ybar (o : Slot) : Statement (.ybar o) := of_row .ybar rfl (by decide) rfl rfl
theorem ywait (o : Slot) : Statement (.ywait o) := of_row .ywait rfl (by decide) rfl rfl
theorem tlbinv (o : Slot) : Statement (.tlbinv o) := of_row .tlbinv rfl (by decide) rfl rfl
theorem tlbinvAll (o : Slot) : Statement (.tlbinvAll o) := of_row .tlbinv rfl (by decide) rfl rfl
theorem probeResult (grp : Nat) : Statement (.probeResult grp) := of_event rfl
theorem probeLinkLimit (grp : Nat) : Statement (.probeLinkLimit grp) := of_event rfl
theorem sectionAccept (grp : Nat) : Statement (.sectionAccept grp) := of_event rfl
theorem stagingCheck (grp : Nat) : Statement (.stagingCheck grp) := of_event rfl
theorem creditCommit (stall : Nat) : Statement (.creditCommit stall) := of_event rfl
theorem remoteAccessArrive (grp : Nat) : Statement (.remoteAccessArrive grp) := of_event rfl
theorem remoteReply (grp : Nat) : Statement (.remoteReply grp) := of_event rfl
theorem loadComplete (grp : Nat) (what : LoadPart) : Statement (.loadComplete grp what) := of_event rfl
theorem storeAck (grp : Nat) (idx : Nat) : Statement (.storeAck grp idx) := of_event rfl
theorem homeRegistration (stall : Nat) (word : Nat) : Statement (.homeRegistration stall word) := of_event rfl
theorem l1WordExpiry (stall : Nat) (word : Nat) : Statement (.l1WordExpiry stall word) := of_event rfl
theorem lineFetch (grp : Nat) : Statement (.lineFetch grp) := of_event rfl
theorem claimRehomeDone (grp : Nat) : Statement (.claimRehomeDone grp) := of_event rfl
theorem shootdownAck (grp : Nat) : Statement (.shootdownAck grp) := of_event rfl
theorem cartStart (stall : Nat) (idx : Nat) : Statement (.cartStart stall idx) := of_event rfl
theorem cartComplete (stall : Nat) (idx : Nat) : Statement (.cartComplete stall idx) := of_event rfl
theorem cartgComplete (stall : Nat) (idx : Nat) : Statement (.cartgComplete stall idx) := of_event rfl
theorem baleComplete (stall : Nat) (idx : Nat) : Statement (.baleComplete stall idx) := of_event rfl
theorem mloopComplete (stall : Nat) : Statement (.mloopComplete stall) := of_event rfl
theorem mdrainComplete (stall : Nat) : Statement (.mdrainComplete stall) := of_event rfl
theorem mclrRun (stall : Nat) : Statement (.mclrRun stall) := of_event rfl
theorem rayQueryComplete (grp : Nat) (idx : Nat) : Statement (.rayQueryComplete grp idx) := of_event rfl
theorem rayVisitLimit (grp : Nat) (idx : Nat) : Statement (.rayVisitLimit grp idx) := of_event rfl
theorem ltreeStepLimit (grp : Nat) (idx : Nat) : Statement (.ltreeStepLimit grp idx) := of_event rfl
theorem callableRunStart (stall : Nat) : Statement (.callableRunStart stall) := of_event rfl
theorem callableIssueLimit (stall : Nat) : Statement (.callableIssueLimit stall) := of_event rfl
theorem groomStart (stable : Nat) : Statement (.groomStart stable) := of_event rfl
theorem groomComplete (stable : Nat) (idx : Nat) : Statement (.groomComplete stable idx) := of_event rfl
theorem gbarComplete (gang : Nat) : Statement (.gbarComplete gang) := of_event rfl
theorem yardRoundRelease (ctx : Nat) : Statement (.yardRoundRelease ctx) := of_event rfl
theorem lqappend (port : Nat) (queue : Nat) (value : BitVec 64) : Statement (.lqappend port queue value) := of_event rfl
theorem distributorTakeBlock (queue : Nat) : Statement (.distributorTakeBlock queue) := of_event rfl
theorem gangPlacement : Statement .gangPlacement := of_event rfl
theorem starvationLimit (queue : Nat) : Statement (.starvationLimit queue) := of_event rfl
theorem fetchwServe : Statement .fetchwServe := of_event rfl
theorem gangRetire (gang : Nat) (cycles : Nat) : Statement (.gangRetire gang cycles) := of_event rfl
theorem issueAgeRotate (grp : Nat) : Statement (.issueAgeRotate grp) := of_event rfl
theorem packingMove (stall : Nat) : Statement (.packingMove stall) := of_event rfl
theorem spillMove (stall : Nat) : Statement (.spillMove stall) := of_event rfl
theorem binTimeout (stall : Nat) (bin : Nat) : Statement (.binTimeout stall bin) := of_event rfl
theorem binGroupStart (stall : Nat) : Statement (.binGroupStart stall) := of_event rfl
theorem taskRunStart (gang : Nat) : Statement (.taskRunStart gang) := of_event rfl
theorem groupPark (grp : Nat) : Statement (.groupPark grp) := of_event rfl
theorem groupWake (grp : Nat) : Statement (.groupWake grp) := of_event rfl
theorem gangReplacement (gang : Nat) : Statement (.gangReplacement gang) := of_event rfl
theorem stallErrorLoss (stall : Nat) : Statement (.stallErrorLoss stall) := of_event rfl
theorem stallCheckMiss (stall : Nat) : Statement (.stallCheckMiss stall) := of_event rfl
theorem stableCheckMiss (stable : Nat) : Statement (.stableCheckMiss stable) := of_event rfl
theorem stallHosting (stall : Nat) : Statement (.stallHosting stall) := of_event rfl
theorem gangRestore (gang : Nat) : Statement (.gangRestore gang) := of_event rfl
theorem barnLoss (barn : Nat) : Statement (.barnLoss barn) := of_event rfl
theorem barnMoveComplete (barn : Nat) : Statement (.barnMoveComplete barn) := of_event rfl
theorem dieLinkFailure (barn : Nat) (dir : Nat) : Statement (.dieLinkFailure barn dir) := of_event rfl
theorem eccCorrected (cls : CeClass) (place : Nat) : Statement (.eccCorrected cls place) := of_event rfl
theorem eccUncorrectable (site : EccSite) : Statement (.eccUncorrectable site) := of_event rfl
theorem panelLinkFailure (link : Nat) : Statement (.panelLinkFailure link) := of_event rfl
theorem panelLinkInbound (link : Nat) (req : Inbound) : Statement (.panelLinkInbound link req) := of_event rfl
theorem timeFirstSync (stable : Nat) (release : BitVec 64) (err : Int) : Statement (.timeFirstSync stable release err) := of_event rfl
theorem loffAdjust (stable : Nat) : Statement (.loffAdjust stable) := of_event rfl
theorem powerOn : Statement .powerOn := of_event rfl
theorem panelrst (port : Nat) : Statement (.panelrst port) := of_event rfl
theorem portReset (port : Nat) : Statement (.portReset port) := of_event rfl
theorem portLinkDownTimeout (port : Nat) : Statement (.portLinkDownTimeout port) := of_event rfl
theorem ownctlClaim (ports : List Nat) : Statement (.ownctlClaim ports) := of_event rfl
theorem ownctlHandoverOffer (port : Nat) (hport : Nat) : Statement (.ownctlHandoverOffer port hport) := of_event rfl
theorem ownctlOfferWithdraw (port : Nat) : Statement (.ownctlOfferWithdraw port) := of_event rfl
theorem ownctlAccept (port : Nat) : Statement (.ownctlAccept port) := of_event rfl
theorem ownctlRelease (port : Nat) : Statement (.ownctlRelease port) := of_event rfl
theorem ldrctlGo (port : Nat) : Statement (.ldrctlGo port) := of_event rfl
theorem loaderVerifyDone : Statement .loaderVerifyDone := of_event rfl
theorem attctlReq (port : Nat) : Statement (.attctlReq port) := of_event rfl
theorem attestationReportDone : Statement .attestationReportDone := of_event rfl
theorem tlbshoot (port : Nat) (value : BitVec 64) : Statement (.tlbshoot port value) := of_event rfl
theorem tlbshootAck : Statement .tlbshootAck := of_event rfl
theorem tmapsync (port : Nat) : Statement (.tmapsync port) := of_event rfl
theorem tmapsyncDone : Statement .tmapsyncDone := of_event rfl
theorem memcfgWrite (port : Nat) (value : BitVec 64) : Statement (.memcfgWrite port value) := of_event rfl
theorem preemptGo (port : Nat) (k : Nat) (lid : BitVec 32) : Statement (.preemptGo port k lid) := of_event rfl
theorem preemptLift (port : Nat) (k : Nat) : Statement (.preemptLift port k) := of_event rfl
theorem tfdoneRetry (port : Nat) (seq : BitVec 16) : Statement (.tfdoneRetry port seq) := of_event rfl
theorem tfdoneDeny (port : Nat) (seq : BitVec 16) : Statement (.tfdoneDeny port seq) := of_event rfl
theorem tfdoneEnd (port : Nat) (seq : BitVec 16) : Statement (.tfdoneEnd port seq) := of_event rfl
theorem evptrHeadWrite (port : Nat) (value : BitVec 64) : Statement (.evptrHeadWrite port value) := of_event rfl
theorem loftWrite (port : Nat) (off : Nat) (bytes : List (BitVec 8)) : Statement (.loftWrite port off bytes) := of_event rfl
theorem hostBar2Write (port : Nat) (what : HostWrite) (bytes : List (BitVec 8)) : Statement (.hostBar2Write port what bytes) := of_event rfl
theorem hostBar2Read (port : Nat) (what : HostRead) (n : Nat) : Statement (.hostBar2Read port what n) := of_event rfl
theorem dbgctlAttach (port : Nat) : Statement (.dbgctlAttach port) := of_event rfl
theorem dbgctlHaltRequest (port : Nat) : Statement (.dbgctlHaltRequest port) := of_event rfl
theorem dbgctlStep (port : Nat) : Statement (.dbgctlStep port) := of_event rfl
theorem dbgctlRun (port : Nat) : Statement (.dbgctlRun port) := of_event rfl
theorem dbgctlDetach (port : Nat) : Statement (.dbgctlDetach port) := of_event rfl
theorem ceCounterClear (port : Nat) (cls : CeClass) (place : Nat) : Statement (.ceCounterClear port cls place) := of_event rfl
theorem registerWrite (port : Nat) (off : Nat) (value : BitVec 64) : Statement (.registerWrite port off value) := of_event rfl
theorem portLinkDown (port : Nat) : Statement (.portLinkDown port) := of_event rfl
theorem portLinkUp (up : PortUp) : Statement (.portLinkUp up) := of_event rfl
theorem panelLinkTrained (link : Nat) (peer : Peer) : Statement (.panelLinkTrained link peer) := of_event rfl
theorem zeroLengthReadCompletion (port : Nat) : Statement (.zeroLengthReadCompletion port) := of_event rfl
theorem panelTimeTick : Statement .panelTimeTick := of_event rfl
theorem stallCycle (stall : Nat) (counts : List Nat) : Statement (.stallCycle stall counts) := of_event rfl

end Sys2Proof.Laws.Opcode
end

