-- ==== Sys2Proof/Tests/Slice0.lean ====
section
/-!
SUPPORT. The model's own tests: terms that WellFormed refuses, the words of every encoded instruction, small one-step tests
with results from the spec's worked examples or worked by hand from its rules, and for each statement with hypotheses
states that meet them.
-/

namespace Sys2Proof.Tests

open Sys2Proof Sys2Proof.Machine Sys2Proof.Claim

set_option Elab.async false

/-! ### A small state -/

/-- An 8-byte, a 4-byte and a float TYPE in the modifier (R259, R262). -/
def ty (code : Nat) (rest : Nat) : BitVec 18 := BitVec.ofNat 18 (code * 8192 + rest)

/-- A page of 64 KiB at 0x20000, mapped to the same physical address for reading and writing. -/
def dataPage : TlbEntry := { vpn := 2, large := false, pte := 0x20007 }

/-- The lone group of Machine/Issue.lean with a scratchpad of 32 KiB, a data page, and no instruction in its line. -/
def base : State :=
  let s := State.reset.placeWord 96 0
  let st := s.stall 0
  { s.setStall 0 { st with utlb := dataPage :: st.utlb, lines := [] } with
    agenda := []
    gangs := kinsert s.gangs loneGang { s.gang loneGang with scrsize := 0x8000, slotsMax := 1 } }

/-- The lone group with some registers: lane 0 alone is active. -/
def own (f : Regs → Regs) : Group :=
  let g := base.group loneGroup
  { g with r := f { g.r with exm := 1 }, succ := 0x10001, transferFrom := none }
/-- The state in which a group stands at `cur`. -/
def at' (g : Group) : State := base.setGroup loneGroup g
def regsAt (f : Regs → Regs) : State := at' (own f)

/-- The state after an instruction or an event. -/
def after (i : Instr) (s : State) : State :=
  match exec i s with
  | .next t => t
  | _ => s

def sN (n : Nat) (x : Word) (r : Regs) : Regs := r.setS n x
def vN (n l : Nat) (x : Lane) (r : Regs) : Regs := r.setV n l x
def sReg (i : Instr) (f : Regs → Regs) (n : Nat) : Word := (after i (regsAt f)).regs.getS n
def vReg (i : Instr) (f : Regs → Regs) (n l : Nat) : Lane := (after i (regsAt f)).regs.getV n l
def trapOf (i : Instr) (s : State) : Ended := (after i s).last

/-! ### Terms that WellFormed refuses, one for each check of R264 -/

theorem ill {i : Instr} (h : i.defect.isSome = true) : ¬i.WellFormed := by
  intro hw; rw [Instr.WellFormed] at hw; simp [hw] at h

theorem test_refuses_operand_kind : ¬(Instr.add ⟨.v 1, .s 2, .s 3, .zero, ty 6 0, 0⟩).WellFormed := ill (by decide +kernel)
theorem test_refuses_used_zero_field : ¬(Instr.mov ⟨.s 1, .s 2, .s 3, .zero, 0, 0⟩).WellFormed := ill (by decide +kernel)
theorem test_refuses_immediate_number : ¬(Instr.add ⟨.s 1, .s 2, .imm 1, .zero, ty 6 0, 0⟩).WellFormed := ill (by decide +kernel)
theorem test_refuses_unused_imm : ¬(Instr.nop ⟨.zero, .zero, .zero, .zero, 0, 1⟩).WellFormed := ill (by decide +kernel)
theorem test_refuses_lea_shift : ¬(Instr.lea ⟨.s 1, .s 2, .s 3, .imm 0, ty 6 0, 64⟩).WellFormed := ill (by decide +kernel)
theorem test_refuses_cvt_selector : ¬(Instr.cvt ⟨.v 1, .v 2, .zero, .zero, ty 8 0, 0x24⟩).WellFormed := ill (by decide +kernel)
theorem test_refuses_cvtd_widths : ¬(Instr.cvtd ⟨.v 1, .v 2, .v 3, .zero, ty 8 0, 8⟩).WellFormed := ill (by decide +kernel)
theorem test_refuses_modifier_bit : ¬(Instr.add ⟨.s 1, .s 2, .s 3, .zero, ty 6 4, 0⟩).WellFormed := ill (by decide +kernel)
theorem test_refuses_condition : ¬(Instr.cmp ⟨.s 1, .s 2, .s 3, .zero, ty 6 384, 0⟩).WellFormed := ill (by decide +kernel)
theorem test_refuses_order : ¬(Instr.ldG ⟨.v 2, .v 4, .zero, .zero, ty 4 3072, 0⟩).WellFormed := ill (by decide +kernel)
theorem test_refuses_atomic_op : ¬(Instr.atomG ⟨.v 2, .v 4, .v 6, .zero, ty 4 1600, 0⟩).WellFormed := ill (by decide +kernel)
theorem test_refuses_voxel_size : ¬(Instr.volld ⟨.v 4, .s 2, .v 5, .zero, 0x28000, 0⟩).WellFormed := ill (by decide +kernel)
theorem test_refuses_baled_planes : ¬(Instr.mloop ⟨.zero, .s 4, .s 5, .s 6, 0x18200, 0⟩).WellFormed := ill (by decide +kernel)
theorem test_refuses_reserved_type : ¬(Instr.add ⟨.s 1, .s 2, .s 3, .zero, ty 17 0, 0⟩).WellFormed := ill (by decide +kernel)
theorem test_refuses_type : ¬(Instr.div ⟨.s 1, .s 2, .s 3, .zero, ty 7 0, 0⟩).WellFormed := ill (by decide +kernel)
theorem test_refuses_wid : ¬(Instr.vadd ⟨.v 2, .v 4, .v 6, .zero, ty 4 1, 0⟩).WellFormed := ill (by decide +kernel)
theorem test_refuses_lane_width : ¬(Instr.shfl ⟨.v 2, .v 4, .v 6, .zero, 1, 0⟩).WellFormed := ill (by decide +kernel)
theorem test_refuses_odd_pair : ¬(Instr.vadd ⟨.v 3, .v 4, .v 6, .zero, ty 6 3, 0⟩).WellFormed := ill (by decide +kernel)
theorem test_refuses_record_base : ¬(Instr.rsnrm ⟨.v 4, .zero, .zero, .zero, 0, 0⟩).WellFormed := ill (by decide +kernel)
theorem test_refuses_pair_destination : ¬(Instr.fwait ⟨.s 5, .s 4, .zero, .zero, 0, 0⟩).WellFormed := ill (by decide +kernel)

/-! ### Decoding: the word of every encoded instruction, composed by hand from R255 and the tables of R263, R269, R288,
R311, R334, R352 and R374 -/

/-- A word decodes to an instruction, whose encoding it is. -/
def decodesTo (p : BitVec 96 × Instr) : Bool :=
  match decodeSlot p.1 with
  | .ok i => i = p.2 && encode i = some p.1
  | .error _ => false

theorem test_decode_system : ([
  (0x000000000000000000000000#96, .nop ⟨.zero, .zero, .zero, .zero, 0x0, 0x0⟩),
  (0x000400000000000000000000#96, .brk ⟨.zero, .zero, .zero, .zero, 0x0, 0x0⟩),
  (0x050000000000000000000007#96, .trap ⟨.zero, .zero, .zero, .zero, 0x0, 0x7⟩),
  (0x050400000000000000000000#96, .eret ⟨.zero, .zero, .zero, .zero, 0x0, 0x0⟩),
  (0x050904000000000000000000#96, .gtime ⟨.s 1, .zero, .zero, .zero, 0x0, 0x0⟩),
  (0x050D08000000000000000000#96, .ltime ⟨.s 2, .zero, .zero, .zero, 0x0, 0x0⟩),
  (0x051000000000000000000000#96, .ifence ⟨.zero, .zero, .zero, .zero, 0x0, 0x0⟩),
  (0x0514000000000000FFFFFFFF#96, .svc ⟨.zero, .zero, .zero, .zero, 0x0, 0xFFFFFFFF⟩)] : List (BitVec 96 × Instr)).all decodesTo = true := by decide +kernel

theorem test_decode_scalar : ([
  (0x010105F90C00C00000000000#96, .add ⟨.s 1, .s 62, .s 3, .zero, 0xC000, 0x0⟩),
  (0x0105FD0A0000E00000000002#96, .sub ⟨.s 63, .s 2, .imm 0, .zero, 0xE000, 0x2⟩),
  (0x010905F90C00800000000000#96, .mul ⟨.s 1, .s 62, .s 3, .zero, 0x8000, 0x0⟩),
  (0x010DFD0A0000800000000004#96, .mulh ⟨.s 63, .s 2, .imm 0, .zero, 0x8000, 0x4⟩),
  (0x011105F90C00A00000000000#96, .mulhn ⟨.s 1, .s 62, .s 3, .zero, 0xA000, 0x0⟩),
  (0x0115FD0A0000C00000000006#96, .div ⟨.s 63, .s 2, .imm 0, .zero, 0xC000, 0x6⟩),
  (0x011905F90C00E00000000000#96, .divn ⟨.s 1, .s 62, .s 3, .zero, 0xE000, 0x0⟩),
  (0x011DFD0A0000400000000008#96, .rem ⟨.s 63, .s 2, .imm 0, .zero, 0x4000, 0x8⟩),
  (0x012105F90C00600000000000#96, .remn ⟨.s 1, .s 62, .s 3, .zero, 0x6000, 0x0⟩),
  (0x0125FD0A000000000000000A#96, .min ⟨.s 63, .s 2, .imm 0, .zero, 0x0, 0xA⟩),
  (0x012905F90C00C00000000000#96, .max ⟨.s 1, .s 62, .s 3, .zero, 0xC000, 0x0⟩),
  (0x012DFD0A000020000000000C#96, .minn ⟨.s 63, .s 2, .imm 0, .zero, 0x2000, 0xC⟩),
  (0x013105F90C00E00000000000#96, .maxn ⟨.s 1, .s 62, .s 3, .zero, 0xE000, 0x0⟩),
  (0x0135FD0A0000E0000000000E#96, .and ⟨.s 63, .s 2, .imm 0, .zero, 0xE000, 0xE⟩),
  (0x013905F90C00800000000000#96, .or ⟨.s 1, .s 62, .s 3, .zero, 0x8000, 0x0⟩),
  (0x013DFD0A0000200000000010#96, .xor ⟨.s 63, .s 2, .imm 0, .zero, 0x2000, 0x10⟩),
  (0x014105F90C00C00000000000#96, .andn ⟨.s 1, .s 62, .s 3, .zero, 0xC000, 0x0⟩),
  (0x0145FD0A0000E00000000012#96, .shl ⟨.s 63, .s 2, .imm 0, .zero, 0xE000, 0x12⟩),
  (0x014905F90C00800000000000#96, .shr ⟨.s 1, .s 62, .s 3, .zero, 0x8000, 0x0⟩),
  (0x014DFD0A0000200000000014#96, .sar ⟨.s 63, .s 2, .imm 0, .zero, 0x2000, 0x14⟩),
  (0x015105F90C00C00000000000#96, .rol ⟨.s 1, .s 62, .s 3, .zero, 0xC000, 0x0⟩),
  (0x0155FD0A0000E00000000016#96, .ror ⟨.s 63, .s 2, .imm 0, .zero, 0xE000, 0x16⟩),
  (0x015905080000800000000000#96, .clz ⟨.s 1, .s 2, .zero, .zero, 0x8000, 0x0⟩),
  (0x015D05080000200000000000#96, .ctz ⟨.s 1, .s 2, .zero, .zero, 0x2000, 0x0⟩),
  (0x016105080000C00000000000#96, .popc ⟨.s 1, .s 2, .zero, .zero, 0xC000, 0x0⟩),
  (0x016505080000E00000000000#96, .brev ⟨.s 1, .s 2, .zero, .zero, 0xE000, 0x0⟩),
  (0x016905F90C00800000000000#96, .bfx ⟨.s 1, .s 62, .s 3, .zero, 0x8000, 0x0⟩),
  (0x016DFD0A000020000000001C#96, .bfxs ⟨.s 63, .s 2, .imm 0, .zero, 0x2000, 0x1C⟩),
  (0x017105090D10C00000000000#96, .bfi ⟨.s 1, .s 2, .s 3, .s 4, 0xC000, 0x0⟩),
  (0x017505090D10E00000000000#96, .sel ⟨.s 1, .s 2, .s 3, .s 4, 0xE000, 0x0⟩),
  (0x0179151A000080C0FFFFFFFF#96, .cmp ⟨.s 5, .s 6, .imm 0, .zero, 0x80C0, 0xFFFFFFFF⟩),
  (0x017D15191E00C0000000003F#96, .lea ⟨.s 5, .s 6, .s 7, .imm 0, 0xC000, 0x3F⟩)] : List (BitVec 96 × Instr)).all decodesTo = true := by decide +kernel

theorem test_decode_moves : ([
  (0x020124000002AAAA12345678#96, .movi ⟨.s 9, .zero, .zero, .zero, 0x2AAAA, 0x12345678⟩),
  (0x020525280000000000000000#96, .mov ⟨.s 9, .s 10, .zero, .zero, 0x0, 0x0⟩),
  (0x020927040000000000000000#96, .srd ⟨.s 9, .x 1, .zero, .zero, 0x0, 0x0⟩),
  (0x020F49280000000000000000#96, .swr ⟨.x 18, .s 10, .zero, .zero, 0x0, 0x0⟩)] : List (BitVec 96 × Instr)).all decodesTo = true := by decide +kernel

theorem test_decode_control : ([
  (0x03000110000000000000000A#96, .mblk ⟨.zero, .s 4, .zero, .zero, 0x0, 0xA⟩),
  (0x030400020000000000000003#96, .part ⟨.zero, .zero, .imm 0, .zero, 0x0, 0x3⟩),
  (0x030910000000000000000011#96, .serb ⟨.s 4, .zero, .zero, .zero, 0x0, 0x11⟩),
  (0x030C011000000000FFFFFFF9#96, .sere ⟨.zero, .s 4, .zero, .zero, 0x0, 0xFFFFFFF9⟩),
  (0x040000000000000000000009#96, .br ⟨.zero, .zero, .zero, .zero, 0x0, 0x9⟩),
  (0x040401111400C080FFFFFFE9#96, .brc ⟨.zero, .s 4, .s 5, .zero, 0xC080, 0xFFFFFFE9⟩),
  (0x040801180000000000000000#96, .jmp ⟨.zero, .s 6, .zero, .zero, 0x0, 0x0⟩),
  (0x040D1C000000000000000008#96, .call ⟨.s 7, .zero, .zero, .zero, 0x0, 0x8⟩),
  (0x04111D200000000000000000#96, .calli ⟨.s 7, .s 8, .zero, .zero, 0x0, 0x0⟩),
  (0x0414011C0000000000000000#96, .ret ⟨.zero, .s 7, .zero, .zero, 0x0, 0x0⟩)] : List (BitVec 96 × Instr)).all decodesTo = true := by decide +kernel

theorem test_decode_float : ([
  (0x200014040801003C00000000#96, .fadd ⟨.v 5, .v 1, .v 2, .zero, 0x1003C, 0x0⟩),
  (0x200414050C01083C00000000#96, .fsub ⟨.v 5, .v 1, .s 3, .zero, 0x1083C, 0x0⟩),
  (0x200814040801103C00000000#96, .fmul ⟨.v 5, .v 1, .v 2, .zero, 0x1103C, 0x0⟩),
  (0x200C1404080D081000000000#96, .fma ⟨.v 5, .v 1, .v 2, .v 3, 0x10810, 0x0⟩),
  (0x201014040801003C00000000#96, .fmin ⟨.v 5, .v 1, .v 2, .zero, 0x1003C, 0x0⟩),
  (0x201414050C01083C00000000#96, .fmax ⟨.v 5, .v 1, .s 3, .zero, 0x1083C, 0x0⟩),
  (0x20181506000101CC3F800000#96, .fcmp ⟨.v 5, .s 1, .imm 0, .zero, 0x101CC, 0x3F800000⟩),
  (0x201C14040001000000000000#96, .fclass ⟨.v 5, .v 1, .zero, .zero, 0x10000, 0x0⟩),
  (0x202014040001180400000000#96, .frint ⟨.v 5, .v 1, .zero, .zero, 0x11804, 0x0⟩),
  (0x2100181C0001000000000000#96, .frcp ⟨.v 6, .v 7, .zero, .zero, 0x10000, 0x0⟩),
  (0x2104181C0001000400000000#96, .frsq ⟨.v 6, .v 7, .zero, .zero, 0x10004, 0x0⟩),
  (0x2108181C0001100800000000#96, .fsqrt ⟨.v 6, .v 7, .zero, .zero, 0x11008, 0x0⟩),
  (0x210C181C0001000C00000000#96, .fexp2 ⟨.v 6, .v 7, .zero, .zero, 0x1000C, 0x0⟩),
  (0x2110181C0001000000000000#96, .flog2 ⟨.v 6, .v 7, .zero, .zero, 0x10000, 0x0⟩),
  (0x2114181C0001000400000000#96, .fsinp ⟨.v 6, .v 7, .zero, .zero, 0x10004, 0x0⟩),
  (0x2118181C0001000800000000#96, .fcosp ⟨.v 6, .v 7, .zero, .zero, 0x10008, 0x0⟩),
  (0x220020242801280100000000#96, .hadd2 ⟨.v 8, .v 9, .v 10, .zero, 0x12801, 0x0⟩),
  (0x220420242801480100000000#96, .hmul2 ⟨.v 8, .v 9, .v 10, .zero, 0x14801, 0x0⟩),
  (0x22082024282D280100000000#96, .hfma2 ⟨.v 8, .v 9, .v 10, .v 11, 0x12801, 0x0⟩),
  (0x220C20242801480100000000#96, .hmin2 ⟨.v 8, .v 9, .v 10, .zero, 0x14801, 0x0⟩),
  (0x221020242801280100000000#96, .hmax2 ⟨.v 8, .v 9, .v 10, .zero, 0x12801, 0x0⟩),
  (0x221420242801414100000000#96, .hcmp2 ⟨.v 8, .v 9, .v 10, .zero, 0x14141, 0x0⟩)] : List (BitVec 96 × Instr)).all decodesTo = true := by decide +kernel

theorem test_decode_vector : ([
  (0x230008101800000200000000#96, .vadd ⟨.v 2, .v 4, .v 6, .zero, 0x2, 0x0⟩),
  (0x230408110C00200200000000#96, .vsub ⟨.v 2, .v 4, .s 3, .zero, 0x2002, 0x0⟩),
  (0x230808101800400100000000#96, .vmul ⟨.v 2, .v 4, .v 6, .zero, 0x4001, 0x0⟩),
  (0x230C08110C00600100000000#96, .vmulh ⟨.v 2, .v 4, .s 3, .zero, 0x6001, 0x0⟩),
  (0x231008101820800000000000#96, .vmad ⟨.v 2, .v 4, .v 6, .v 8, 0x8000, 0x0⟩),
  (0x231408110C00A00000000000#96, .vmin ⟨.v 2, .v 4, .s 3, .zero, 0xA000, 0x0⟩),
  (0x231808101800C00300000000#96, .vmax ⟨.v 2, .v 4, .v 6, .zero, 0xC003, 0x0⟩),
  (0x231C08110C00E00300000000#96, .vand ⟨.v 2, .v 4, .s 3, .zero, 0xE003, 0x0⟩),
  (0x232008101800000200000000#96, .vor ⟨.v 2, .v 4, .v 6, .zero, 0x2, 0x0⟩),
  (0x232408110C00200200000000#96, .vxor ⟨.v 2, .v 4, .s 3, .zero, 0x2002, 0x0⟩),
  (0x232808101800400100000000#96, .vshl ⟨.v 2, .v 4, .v 6, .zero, 0x4001, 0x0⟩),
  (0x232C08110C00600100000000#96, .vshr ⟨.v 2, .v 4, .s 3, .zero, 0x6001, 0x0⟩),
  (0x233008101800800000000000#96, .vsar ⟨.v 2, .v 4, .v 6, .zero, 0x8000, 0x0⟩),
  (0x233408110C00A10000000000#96, .vcmp ⟨.v 2, .v 4, .s 3, .zero, 0xA100, 0x0⟩),
  (0x233808101820C00300000000#96, .vsel ⟨.v 2, .v 4, .v 6, .v 8, 0xC003, 0x0⟩),
  (0x233C08110C00E00300000000#96, .vadds ⟨.v 2, .v 4, .s 3, .zero, 0xE003, 0x0⟩),
  (0x240008100000200200000000#96, .vclz ⟨.v 2, .v 4, .zero, .zero, 0x2002, 0x0⟩),
  (0x240408100000600100000000#96, .vctz ⟨.v 2, .v 4, .zero, .zero, 0x6001, 0x0⟩),
  (0x240808100000A00000000000#96, .vffs ⟨.v 2, .v 4, .zero, .zero, 0xA000, 0x0⟩),
  (0x240C08100000E00300000000#96, .vpopc ⟨.v 2, .v 4, .zero, .zero, 0xE003, 0x0⟩),
  (0x241008100000000200000000#96, .vbrev ⟨.v 2, .v 4, .zero, .zero, 0x2, 0x0⟩),
  (0x241408101800C00300000000#96, .vbfx ⟨.v 2, .v 4, .v 6, .zero, 0xC003, 0x0⟩),
  (0x241808101820A00000000000#96, .vbfi ⟨.v 2, .v 4, .v 6, .v 8, 0xA000, 0x0⟩)] : List (BitVec 96 × Instr)).all decodesTo = true := by decide +kernel

theorem test_decode_convert : ([
  (0x25002024000108000000006D#96, .cvt ⟨.v 8, .v 9, .zero, .zero, 0x10800, 0x6D⟩),
  (0x2504282C3001240100000008#96, .cvtd ⟨.v 10, .v 11, .v 12, .zero, 0x12401, 0x8⟩),
  (0x250804090C01400D00000000#96, .vscale ⟨.v 1, .v 2, .s 3, .zero, 0x1400D, 0x0⟩)] : List (BitVec 96 × Instr)).all decodesTo = true := by decide +kernel

theorem test_decode_exchange : ([
  (0x260008100C00000300000000#96, .shfl ⟨.v 2, .v 4, .v 3, .zero, 0x3, 0x0⟩),
  (0x260408120000000400000007#96, .shflx ⟨.v 2, .v 4, .imm 0, .zero, 0x4, 0x7⟩),
  (0x260808100C00000300000000#96, .shflup ⟨.v 2, .v 4, .v 3, .zero, 0x3, 0x0⟩),
  (0x260C08120000000400000007#96, .shfldn ⟨.v 2, .v 4, .imm 0, .zero, 0x4, 0x7⟩),
  (0x261008111418000700000000#96, .gshf ⟨.v 2, .v 4, .s 5, .v 6, 0x7, 0x0⟩),
  (0x261408120000000300000007#96, .vbcast ⟨.v 2, .v 4, .imm 0, .zero, 0x3, 0x7⟩),
  (0x261908110C00000300000000#96, .vlane ⟨.s 2, .v 4, .s 3, .zero, 0x3, 0x0⟩),
  (0x261C08020000000000000007#96, .vidx ⟨.v 2, .zero, .imm 0, .zero, 0x0, 0x7⟩),
  (0x270010080000000000000000#96, .voteany ⟨.v 4, .v 2, .zero, .zero, 0x0, 0x0⟩),
  (0x270410080000000000000000#96, .voteall ⟨.v 4, .v 2, .zero, .zero, 0x0, 0x0⟩),
  (0x270910080000000000000000#96, .ballot ⟨.s 4, .v 2, .zero, .zero, 0x0, 0x0⟩),
  (0x270C10080000C00300000000#96, .redadd ⟨.v 4, .v 2, .zero, .zero, 0xC003, 0x0⟩),
  (0x271010080001080000000000#96, .redfadd ⟨.v 4, .v 2, .zero, .zero, 0x10800, 0x0⟩),
  (0x271410080001000000000000#96, .redmin ⟨.v 4, .v 2, .zero, .zero, 0x10000, 0x0⟩),
  (0x271810080000A00000000000#96, .redmax ⟨.v 4, .v 2, .zero, .zero, 0xA000, 0x0⟩),
  (0x271C10080000E00300000000#96, .scanadd ⟨.v 4, .v 2, .zero, .zero, 0xE003, 0x0⟩),
  (0x272010080001100000000000#96, .scanfadd ⟨.v 4, .v 2, .zero, .zero, 0x11000, 0x0⟩),
  (0x272410080000E00300000000#96, .matchLanes ⟨.v 4, .v 2, .zero, .zero, 0xE003, 0x0⟩)] : List (BitVec 96 × Instr)).all decodesTo = true := by decide +kernel

theorem test_decode_memory : ([
  (0x600018080000880000000040#96, .ldG ⟨.v 6, .v 2, .zero, .zero, 0x8800, 0x40⟩),
  (0x600419080000E003FFFFFFF8#96, .ldL ⟨.v 6, .s 2, .zero, .zero, 0xE003, 0xFFFFFFF8⟩),
  (0x60081C0C0001800200000000#96, .ldF ⟨.v 7, .v 3, .zero, .zero, 0x18002, 0x0⟩),
  (0x600C1C0C0124480100000004#96, .ldR ⟨.v 7, .v 3, .zero, .s 9, 0x4801, 0x4⟩),
  (0x60111D0C000100100000000C#96, .lds ⟨.s 7, .s 3, .zero, .zero, 0x10010, 0xC⟩),
  (0x60141D0C0000080000000040#96, .ldline ⟨.v 7, .s 3, .zero, .zero, 0x800, 0x40⟩),
  (0x6100000810002C0200000001#96, .stG ⟨.zero, .v 2, .v 4, .zero, 0x2C02, 0x1⟩),
  (0x6104010A0000800000000005#96, .stL ⟨.zero, .s 2, .imm 0, .zero, 0x8000, 0x5⟩),
  (0x610800081114CC0300000008#96, .stR ⟨.zero, .v 2, .v 4, .s 5, 0xCC03, 0x8⟩),
  (0x610800101524802000001000#96, .stRCnt ⟨.zero, .v 4, .v 5, .s 9, 0x8020, 0x1000⟩),
  (0x610C01090C00600900000002#96, .sts ⟨.zero, .s 2, .s 3, .zero, 0x6009, 0x2⟩),
  (0x620018082000C5C300000010#96, .atomG ⟨.v 6, .v 2, .v 8, .zero, 0xC5C3, 0x10⟩),
  (0x6204000A0000A80400000001#96, .atomL ⟨.zero, .v 2, .imm 0, .zero, 0xA804, 0x1⟩),
  (0x620818092025120000000010#96, .atomR ⟨.v 6, .v 2, .s 8, .v 9, 0x11200, 0x10⟩),
  (0x630000000000000000000000#96, .acq ⟨.zero, .zero, .zero, .zero, 0x0, 0x0⟩),
  (0x630400000000000000000000#96, .rel ⟨.zero, .zero, .zero, .zero, 0x0, 0x0⟩),
  (0x630800000000000000000000#96, .fence ⟨.zero, .zero, .zero, .zero, 0x0, 0x0⟩),
  (0x630C010A0000000000000003#96, .claim ⟨.zero, .s 2, .imm 0, .zero, 0x0, 0x3⟩),
  (0x640011081402000000000000#96, .volld ⟨.v 4, .s 2, .v 5, .zero, 0x20000, 0x0⟩),
  (0x640401081421800000000040#96, .volst ⟨.zero, .s 2, .v 5, .v 8, 0x18000, 0x40⟩),
  (0x640905090E00000000000009#96, .volinv ⟨.s 1, .s 2, .s 3, .imm 0, 0x0, 0x9⟩)] : List (BitVec 96 × Instr)).all decodesTo = true := by decide +kernel

theorem test_decode_engine : ([
  (0x650001090C00000000000040#96, .cart ⟨.zero, .s 2, .s 3, .zero, 0x0, 0x40⟩),
  (0x6504010A0000000000000005#96, .cartg ⟨.zero, .s 2, .imm 0, .zero, 0x0, 0x5⟩),
  (0x800001090C00000000000040#96, .bale ⟨.zero, .s 2, .s 3, .zero, 0x0, 0x40⟩),
  (0x8004010A0000000000000010#96, .plz ⟨.zero, .s 2, .imm 0, .zero, 0x0, 0x10⟩),
  (0x800801111519CE4000000000#96, .mloop ⟨.zero, .s 4, .s 5, .s 6, 0x1CE40, 0x0⟩),
  (0x800D1C000000000000000000#96, .mfence ⟨.s 7, .zero, .zero, .zero, 0x0, 0x0⟩),
  (0x801000011C00000000000000#96, .mwait ⟨.zero, .zero, .s 7, .zero, 0x0, 0x0⟩),
  (0x8014011115183FBA00000080#96, .mdrain ⟨.zero, .s 4, .s 5, .s 6, 0x3FBA, 0x80⟩),
  (0x80180000000000D000000000#96, .mclr ⟨.zero, .zero, .zero, .zero, 0xD0, 0x0⟩),
  (0x801C01120000000000000002#96, .actld ⟨.zero, .s 4, .imm 0, .zero, 0x0, 0x2⟩),
  (0x810004090C01080000000000#96, .scacc ⟨.v 1, .v 2, .s 3, .zero, 0x10800, 0x0⟩)] : List (BitVec 96 × Instr)).all decodesTo = true := by decide +kernel

theorem test_decode_waits : ([
  (0x660104010C00000000000000#96, .twaitany ⟨.s 1, .zero, .s 3, .zero, 0x0, 0x0⟩),
  (0x6604000200000000000000F0#96, .twaitall ⟨.zero, .zero, .imm 0, .zero, 0x0, 0xF0⟩),
  (0x660904010C00000000000000#96, .tffs ⟨.s 1, .zero, .s 3, .zero, 0x0, 0x0⟩),
  (0x660C0000000000003F3F0000#96, .waitc ⟨.zero, .zero, .zero, .zero, 0x0, 0x3F3F0000⟩),
  (0x670001090D10000000000020#96, .binit ⟨.zero, .s 2, .s 3, .s 4, 0x0, 0x20⟩),
  (0x670505090C00000000000020#96, .barr ⟨.s 1, .s 2, .s 3, .zero, 0x0, 0x20⟩),
  (0x670505090D10000000000020#96, .barrRemote ⟨.s 1, .s 2, .s 3, .s 4, 0x0, 0x20⟩),
  (0x6708010A0000000000000001#96, .bwait ⟨.zero, .s 2, .imm 0, .zero, 0x0, 0x1⟩),
  (0x670D05090C00000000000020#96, .btest ⟨.s 1, .s 2, .s 3, .zero, 0x0, 0x20⟩)] : List (BitVec 96 × Instr)).all decodesTo = true := by decide +kernel

theorem test_decode_render : ([
  (0x90000C060001000000000000#96, .draw ⟨.v 3, .v 1, .imm 0, .zero, 0x10000, 0x0⟩),
  (0x900420410C10000400000000#96, .rsupd ⟨.v 8, .v 16, .s 3, .v 4, 0x4, 0x0⟩),
  (0x900820401000000000000000#96, .rsmrg ⟨.v 8, .v 16, .v 4, .zero, 0x0, 0x0⟩),
  (0x900C20000010000400000000#96, .rsnrm ⟨.v 8, .zero, .zero, .v 4, 0x4, 0x0⟩),
  (0x901020080000000000000000#96, .rsld ⟨.v 8, .v 2, .zero, .zero, 0x0, 0x0⟩),
  (0x901401084000000000000000#96, .rsst ⟨.zero, .s 2, .v 16, .zero, 0x0, 0x0⟩),
  (0x901810210C00000000000000#96, .rayq ⟨.v 4, .v 8, .s 3, .zero, 0x0, 0x0⟩),
  (0x901C14210C00000000000000#96, .rayv ⟨.v 5, .v 8, .s 3, .zero, 0x0, 0x0⟩),
  (0x902018210C00000000000000#96, .ltree ⟨.v 6, .v 8, .s 3, .zero, 0x0, 0x0⟩),
  (0x90241C410C00000000000000#96, .tcall ⟨.v 7, .v 16, .s 3, .zero, 0x0, 0x0⟩),
  (0x902800000000000000000000#96, .tret ⟨.zero, .zero, .zero, .zero, 0x0, 0x0⟩),
  (0x902C010A0000000000000040#96, .groom ⟨.zero, .s 2, .imm 0, .zero, 0x0, 0x40⟩)] : List (BitVec 96 × Instr)).all decodesTo = true := by decide +kernel

theorem test_decode_gang : ([
  (0xA001050A000000000000003F#96, .launch ⟨.s 1, .s 2, .imm 0, .zero, 0x0, 0x3F⟩),
  (0xA00400000000000000000000#96, .gbar ⟨.zero, .zero, .zero, .zero, 0x0, 0x0⟩),
  (0xA00800000000000000000000#96, .stint ⟨.zero, .zero, .zero, .zero, 0x0, 0x0⟩),
  (0xA00C00000000000000000000#96, .exit ⟨.zero, .zero, .zero, .zero, 0x0, 0x0⟩),
  (0xA01001080000000000000040#96, .fetchw ⟨.zero, .s 2, .zero, .zero, 0x0, 0x40⟩),
  (0xA100000A00000000FFFFFFF8#96, .spawn ⟨.zero, .v 2, .imm 0, .zero, 0x0, 0xFFFFFFF8⟩),
  (0xA10000090C00000000000000#96, .spawnIndirect ⟨.zero, .v 2, .s 3, .zero, 0x0, 0x0⟩),
  (0xA10400000000000000000000#96, .lrefill ⟨.zero, .zero, .zero, .zero, 0x0, 0x0⟩),
  (0xA20001111400000000000040#96, .task ⟨.zero, .s 4, .s 5, .zero, 0x0, 0x40⟩),
  (0xA20001111000000400000040#96, .taskRun ⟨.zero, .s 4, .s 4, .zero, 0x4, 0x40⟩),
  (0xA20519100000000000000000#96, .fwait ⟨.s 6, .s 4, .zero, .zero, 0x0, 0x0⟩),
  (0xA20800020000000000000007#96, .fset ⟨.zero, .zero, .imm 0, .zero, 0x0, 0x7⟩),
  (0xA20C01100000000000000008#96, .lock ⟨.zero, .s 4, .zero, .zero, 0x0, 0x8⟩),
  (0xA21001100000000000000008#96, .unlock ⟨.zero, .s 4, .zero, .zero, 0x0, 0x8⟩),
  (0xA21401111400000000000040#96, .enq ⟨.zero, .s 4, .s 5, .zero, 0x0, 0x40⟩),
  (0xA21919100000000000000040#96, .deq ⟨.s 6, .s 4, .zero, .zero, 0x0, 0x40⟩),
  (0xA21D21100000000000000040#96, .qwait ⟨.s 8, .s 4, .zero, .zero, 0x0, 0x40⟩),
  (0xA30111140000000000000000#96, .ybar ⟨.s 4, .s 5, .zero, .zero, 0x0, 0x0⟩),
  (0xA30400020000000000000009#96, .ywait ⟨.zero, .zero, .imm 0, .zero, 0x0, 0x9⟩),
  (0xA401050A0000000000000003#96, .tlbinv ⟨.s 1, .s 2, .imm 0, .zero, 0x0, 0x3⟩),
  (0xA40104000000000400000000#96, .tlbinvAll ⟨.s 1, .zero, .zero, .zero, 0x4, 0x0⟩)] : List (BitVec 96 × Instr)).all decodesTo = true := by decide +kernel

/-- Bits that R264 refuses, by the first check that they fail. -/
theorem test_refused_words : ([(0x06 * 2 ^ 88, .major), (0x00 * 2 ^ 88 + 2 * 2 ^ 82, .minor), (1, .immediate),
    (0x01 * 2 ^ 88 + 3 * 2 ^ 74, .operand), (0x02 * 2 ^ 88 + 1 * 2 ^ 82 + 0x41 * 2 ^ 74 + 0x41 * 2 ^ 66 + 2 ^ 32, .modifier)] :
    List (Nat × DecodeError)).all (fun p => decide ((decodeSlot (BitVec.ofNat 96 p.1)).toOption = none) &&
      match decodeSlot (BitVec.ofNat 96 p.1) with | .error e => decide (e = p.2) | _ => false) = true := by decide +kernel

/-! ### Scalar and control instructions -/

/-- R271: S32 addition wraps and is sign-extended. -/
theorem test_add_wraps : sReg (.add ⟨.s 1, .s 2, .imm 0, .zero, ty 4 0, 1⟩) (sN 2 0x7FFFFFFF) 1 = 0xFFFFFFFF80000000 := by
  decide +kernel
/-- R271: the borrow of an N8 subtraction is lost. -/
theorem test_sub_narrow : sReg (.sub ⟨.s 1, .s 2, .s 3, .zero, ty 1 0, 0⟩) (sN 2 1 ∘ sN 3 2) 1 = 0xFF := by decide +kernel
/-- R271: (−2³¹)² ÷ 2³² = 2³⁰. -/
theorem test_mulh : sReg (.mulh ⟨.s 1, .s 2, .s 2, .zero, ty 4 0, 0⟩) (sN 2 0x80000000) 1 = 0x40000000 := by decide +kernel
/-- R272: a count of n or more. -/
theorem test_shift_out : sReg (.shl ⟨.s 1, .s 2, .imm 0, .zero, ty 5 0, 32⟩) (sN 2 0xFFFFFFFF) 1 = 0 ∧
    sReg (.sar ⟨.s 1, .s 2, .imm 0, .zero, ty 5 0, 33⟩) (sN 2 0x80000000) 1 = 0xFFFFFFFF := by decide +kernel
/-- R273: the least value by −1, and a remainder's sign. -/
theorem test_div_corner : sReg (.div ⟨.s 1, .s 2, .s 3, .zero, ty 0 0, 0⟩) (sN 2 0x80 ∘ sN 3 0xFF) 1 = 0xFFFFFFFFFFFFFF80 ∧
    sReg (.rem ⟨.s 1, .s 2, .imm 0, .zero, ty 4 0, 2⟩) (sN 2 0xFFFFFFFD) 1 = 0xFFFFFFFFFFFFFFFF := by decide +kernel
/-- R273: a zero divisor, in user mode with no handler: the gang ends, so nothing is written. -/
theorem test_div_zero : sReg (.divn ⟨.s 1, .s 2, .s 3, .zero, ty 7 0, 0⟩) (sN 1 5 ∘ sN 2 7) 1 = 5 ∧
    trapOf (.divn ⟨.s 1, .s 2, .s 3, .zero, ty 7 0, 0⟩) (regsAt (sN 2 7)) = .trapped 0x12 := by decide +kernel
/-- R274: BFXS of bits [11:8], BFI of four bits at 4. -/
theorem test_fields : sReg (.bfxs ⟨.s 1, .s 2, .imm 0, .zero, ty 6 0, 0x0408⟩) (sN 2 0xF00) 1 = 0xFFFFFFFFFFFFFFFF ∧
    sReg (.bfi ⟨.s 1, .s 2, .s 3, .s 4, ty 7 0, 0⟩) (sN 2 0xAB ∘ sN 3 0x0404 ∘ sN 4 0xFFFF) 1 = 0xFFBF := by decide +kernel
/-- R275: the immediate is 50 bits, and s0 discards a write (R73). -/
theorem test_movi : sReg (.movi ⟨.s 1, .zero, .zero, .zero, 0x20000, 0⟩) id 1 = 0xFFFE000000000000 ∧
    sReg (.movi ⟨.s 0, .zero, .zero, .zero, 0, 7⟩) id 0 = 0 := by decide +kernel
/-- R276, R79: SRD of EXM, SWR of LPART. -/
theorem test_special : sReg (.srd ⟨.s 1, .x 0, .zero, .zero, 0, 0⟩) id 1 = 1 ∧
    (after (.swr ⟨.x 1, .s 2, .zero, .zero, 0, 0⟩) (regsAt (sN 2 0xFC))).regs.lpart = 4 := by decide +kernel
/-- R77, R83: a supervisor register in user mode. -/
theorem test_privilege : trapOf (.srd ⟨.s 1, .x 33, .zero, .zero, 0, 0⟩) (regsAt id) = .trapped 0x05 := by decide +kernel
/-- R270: the target of the spec's BRC example, and the fall through. -/
theorem test_brc_target :
    (after (.brc ⟨.zero, .s 4, .s 5, .zero, ty 6 128, 0xFFFFFFE9⟩)
      (at' { own (sN 4 1 ∘ sN 5 2) with r := { (own (sN 4 1 ∘ sN 5 2)).r with pc := 0x402100 } })).regs.pc = 0x402041 ∧
    (after (.brc ⟨.zero, .s 4, .s 5, .zero, ty 6 128, 0xFFFFFFE9⟩) (regsAt (sN 4 2 ∘ sN 5 2))).regs.pc = 0x10001 := by
  decide +kernel
/-- R281: CALLI s7, s7 reads before it writes. -/
theorem test_calli : (after (.calli ⟨.s 7, .s 7, .zero, .zero, 0, 0⟩) (regsAt (sN 7 0x30000))).regs.pc = 0x30000 ∧
    sReg (.calli ⟨.s 7, .s 7, .zero, .zero, 0, 0⟩) (sN 7 0x30000) 7 = 0x10001 := by decide +kernel
/-- R279: a serialised region of lanes 1 and 3. -/
theorem test_serb : (after (.serb ⟨.s 4, .zero, .zero, .zero, 0, 8⟩) (regsAt fun r => { r with exm := 0xA })).regs.exm = 2 ∧
    (after (.sere ⟨.zero, .s 4, .zero, .zero, 0, 0⟩) (regsAt fun r =>
      { r.setS 4 0xA with exm := 2, serial := true })).regs.exm = 8 := by decide +kernel
/-- R84: the registers of the spec's worked example, from an LD.G's trap. -/
theorem test_trap_entry :
    let t : Trap := { cause := .permission, lanes := 0x1010, addr := 0x20000001000, wr := false, fetch := false, mal := false }
    let s := { regsAt (fun r => { r with pc := 0x401A42 }) with
      launches := kinsert base.launches 1 { loneLaunch with trapPc := 0x10040 } }
    let r := (s.takeException false t).regs
    r.tcause = 8 ∧ r.flmask = 0x1010 ∧ r.taddr = 0x20000001000 ∧ r.tpc = 0x401A42 ∧ r.epc = 0x401A42 ∧ r.estat = 8 ∧
    r.sup = true ∧ r.pc = 0x10040 := by decide +kernel

/-! ### Lane instructions -/

/-- R298: the lane 0x1000 at N8 and N16, from the spec's table. -/
theorem test_counts : vReg (.vclz ⟨.v 1, .v 2, .zero, .zero, ty 1 2, 0⟩) (vN 2 0 0x1000) 1 0 = 0x08080308 ∧
    vReg (.vbrev ⟨.v 1, .v 2, .zero, .zero, ty 3 1, 0⟩) (vN 2 0 0x1000) 1 0 = 8 ∧
    vReg (.vffs ⟨.v 1, .v 2, .zero, .zero, ty 1 2, 0⟩) (vN 2 0 0x1000) 1 0 = 0x500 := by decide +kernel
/-- R296: VADDS saturates each S8 element. -/
theorem test_vadds : vReg (.vadds ⟨.v 1, .v 2, .v 3, .zero, ty 0 2, 0⟩) (vN 2 0 0x7F80FF01 ∘ vN 3 0 0x01FF0101) 1 0 =
    0x7F800002 := by decide +kernel
/-- R34: an inactive lane keeps its value. -/
theorem test_inactive_lane : vReg (.vadd ⟨.v 1, .v 2, .imm 0, .zero, ty 4 0, 5⟩) (vN 1 1 9) 1 1 = 9 ∧
    vReg (.vadd ⟨.v 1, .v 2, .imm 0, .zero, ty 4 0, 5⟩) (vN 1 1 9) 1 0 = 5 := by decide +kernel
/-- R291: 1 + 2⁻²⁴ rounds to even, and 0 × ∞ in an FMA is NaN whatever C is. -/
theorem test_fadd_rne : vReg (.fadd ⟨.v 1, .v 2, .v 3, .zero, ty 8 0, 0⟩) (vN 2 0 0x3F800000 ∘ vN 3 0 0x33800000) 1 0 =
    0x3F800000 ∧ vReg (.fma ⟨.v 1, .v 2, .v 3, .v 4, ty 8 0, 0⟩) (vN 3 0 0x7F800000 ∘ vN 4 0 0x3F800000) 1 0 = 0x7FC00000 := by
  decide +kernel
/-- R291: FRINT of −0.4 is −0. -/
theorem test_frint : vReg (.frint ⟨.v 1, .v 2, .zero, .zero, ty 8 0, 0⟩) (vN 2 0 0xBECCCCCD) 1 0 = 0x80000000 := by
  decide +kernel
/-- R292: FCLASS of −0, FMIN of two zeros. -/
theorem test_fclass : vReg (.fclass ⟨.v 1, .v 2, .zero, .zero, ty 8 0, 0⟩) (vN 2 0 0x80000000) 1 0 = 8 ∧
    vReg (.fmin ⟨.v 1, .v 2, .v 3, .zero, ty 8 0, 0⟩) (vN 3 0 0x80000000) 1 0 = 0x80000000 := by decide +kernel
/-- R294: FRCP of −0, FLOG2 of 1, FCOSP of 0.5. -/
theorem test_special_functions : vReg (.frcp ⟨.v 1, .v 2, .zero, .zero, ty 8 0, 0⟩) (vN 2 0 0x80000000) 1 0 = 0xFF800000 ∧
    vReg (.flog2 ⟨.v 1, .v 2, .zero, .zero, ty 8 0, 0⟩) (vN 2 0 0x3F800000) 1 0 = 0 ∧
    vReg (.fcosp ⟨.v 1, .v 2, .zero, .zero, ty 8 0, 0⟩) (vN 2 0 0x3F000000) 1 0 = 0 := by decide +kernel
/-- R302: the spec's CVT of an O4 outlier and CVTD of 65,520. -/
theorem test_cvt : vReg (.cvt ⟨.v 8, .v 9, .zero, .zero, ty 8 0, 0x0D⟩) (vN 9 0 0xD8) 8 0 = 0xC2400000 ∧
    vReg (.cvtd ⟨.v 10, .v 11, .v 12, .zero, ty 9 1, 8⟩) (vN 11 0 0x3F800000 ∘ vN 12 0 0x477FF000) 10 0 = 0x7BFF3C00 ∧
    trapOf (.cvtd ⟨.v 10, .v 11, .v 12, .zero, ty 9 1537, 8⟩) (regsAt (vN 11 0 0x3F800000 ∘ vN 12 0 0x477FF000)) =
      .trapped 0x0E := by decide +kernel
/-- R304: under tiles of 16 an index of 16 lies outside; FILL gives 0. -/
theorem test_shfl : vReg (.shfl ⟨.v 1, .v 2, .imm 0, .zero, 4, 16⟩) ((fun r => { r with lpart := 1 }) ∘ vN 2 0 7) 1 0 = 0 ∧
    vReg (.shfl ⟨.v 1, .v 2, .imm 0, .zero, 0, 15⟩) ((fun r => { r with lpart := 1 }) ∘ vN 2 15 7) 1 0 = 7 := by
  decide +kernel
/-- R307: BALLOT counts active lanes only. -/
theorem test_ballot : sReg (.ballot ⟨.s 1, .v 2, .zero, .zero, 0, 0⟩) ((fun r => { r with exm := 6 }) ∘ vN 2 0 1 ∘ vN 2 2 1) 1 =
    4 := by decide +kernel
/-- R308: an S32 sum of the tile in every active lane. -/
theorem test_redadd : vReg (.redadd ⟨.v 1, .v 2, .zero, .zero, ty 4 0, 0⟩)
    ((fun r => { r with exm := 5 }) ∘ vN 2 0 3 ∘ vN 2 1 100 ∘ vN 2 2 4) 1 2 = 7 := by decide +kernel
/-- R356: the spec's worked DRAW, in both forms. -/
theorem test_draw : vReg (.draw ⟨.v 3, .v 1, .imm 0, .zero, ty 8 0, 0⟩) (vN 1 0 1) 3 0 = 0x3EB36D94 ∧
    vReg (.draw ⟨.v 3, .v 1, .imm 0, .zero, ty 5 0, 0⟩) (vN 1 0 1) 3 0 = 0x59B6CAF0 := by decide +kernel

/-! ### Memory, queues, boundaries -/

/-- R2, R312: a store to the gang's scratchpad and the bytes that it leaves. -/
theorem test_store_local : (((after (.stL ⟨.zero, .s 2, .imm 0, .zero, ty 4 0, 0x11223344⟩) (regsAt (sN 2 8))).stall
    0).scratch.readN 8 4) = [0x44, 0x33, 0x22, 0x11] := by decide +kernel
/-- R88: an access that ends beyond SCRSIZE. -/
theorem test_scr_bounds : trapOf (.stL ⟨.zero, .s 2, .imm 0, .zero, ty 4 0, 1⟩) (regsAt (sN 2 0x7FFD)) = .trapped 0x06 := by
  decide +kernel
/-- R313, R75: an S8 load is sign-extended when it completes. -/
theorem test_load_signed : (after (.loadComplete loneGroup ⟨0, [0]⟩) (after (.ldG ⟨.v 6, .s 2, .zero, .zero, ty 0 2, 0⟩)
    { regsAt (sN 2 0x20000) with gmem := [(0x20000, 0x80)] })).regs.getV 6 0 = 0xFFFFFF80 := by decide +kernel
/-- R157: a store to a page that maps no writing. -/
theorem test_permission : trapOf (.stG ⟨.zero, .s 2, .imm 0, .zero, ty 4 0, 1⟩) (regsAt (sN 2 0x10000)) = .trapped 0x08 := by
  decide +kernel
/-- R187, R123: a global store waits for its word and counts in ST; its registration makes it coherent. -/
theorem test_store_global :
    let t := after (.stG ⟨.zero, .s 2, .imm 0, .zero, ty 4 0, 0x55⟩) (regsAt (sN 2 0x20000))
    t.me.st = 1 ∧ t.coherent 0x20000 = 0 ∧ (after (.homeRegistration 0 0x8000) t).coherent 0x20000 = 0x55 := by
  decide +kernel
/-- R316: a failed CAS writes nothing. -/
theorem test_cas_fails :
    let t := after (.atomL ⟨.v 6, .s 2, .v 8, .zero, ty 5 1472, 0⟩) (regsAt (sN 2 8 ∘ vN 8 0 7 ∘ vN 9 0 1))
    t.last = .retired ∧ (t.stall 0).scratch = [] := by decide +kernel
/-- R328: the update that passes a round keeps the excess. -/
theorem test_barrier_round :
    let s := base.scrWrite 0 0 (leBytes 4 2 ++ leBytes 4 0 ++ leBytes 4 1 ++ leBytes 8 0 ++ leBytes 4 0 ++ leBytes 4 1)
    let t := s.updateObject 0 0 2 0
    t.objWord 0 0 2 = 1 ∧ t.objWord 0 0 4 = 1 := by decide +kernel
/-- R42, R43: REL closes a stint. -/
theorem test_rel : (after (.rel ⟨.zero, .zero, .zero, .zero, 0, 0⟩) (regsAt id)).regs.stintno = 1 ∧
    (after (.rel ⟨.zero, .zero, .zero, .zero, 0, 0⟩) (regsAt id)).last = .retired := by decide +kernel
/-- R379: EXIT at depth 0. -/
theorem test_exit : ((after (.exit ⟨.zero, .zero, .zero, .zero, 0, 0⟩) (regsAt id)).me.standing) = .exited := by
  decide +kernel
/-- R326: TWAITANY takes the lowest tag. -/
theorem test_twaitany : sReg (.tffs ⟨.s 1, .zero, .imm 0, .zero, 0, 0xF0⟩) id 1 = 64 := by decide +kernel
/-- R239: a claim of an unowned panel. -/
theorem test_claim_panel : (after (.ownctlClaim [2]) { base with ports := [(2, { Port.fresh with link := true })] }).own.owned =
    true := by decide +kernel
/-- R191: a tick. -/
theorem test_tick : (after .panelTimeTick base).ptime = 1 := by decide +kernel
/-- The step that the placing of a word leads to runs it (log 2). -/
theorem test_step_runs : (match step (State.reset.withFetchWord 96 0x01010D0E0000C00000000001) with
    | .next t => t.regs.getS 3
    | _ => 0) = 1 := by decide +kernel

/-! ### Witnesses: for each statement with hypotheses, states and operands that meet them -/

def readyB (i : Instr) (s : State) (g : Group) : Bool :=
  s.group? s.cur = some g && placeOk i s.cur && g.deny.isNone && i.defect.isNone && budgetOk i g && !interlocked i g &&
  g.replay.isEmpty

theorem ready_of {i : Instr} {s : State} {g : Group} (h : readyB i s g = true) : Ready i s g := by
  simp only [readyB, Bool.and_eq_true, decide_eq_true_eq, Option.isNone_iff_eq_none, Bool.not_eq_true',
    List.isEmpty_iff] at h
  exact ⟨h.1.1.1.1.1.1, h.1.1.1.1.1.2, h.1.1.1.1.2, h.1.1.1.2, h.1.1.2, h.1.2, h.2⟩

theorem ready_all {is : List Instr} {s : State} {g : Group} (h : is.all (readyB · s g) = true) : ∀ i ∈ is, Ready i s g :=
  fun i hi => ready_of (List.all_eq_true.mp h i hi)

/-- A check that passes has a result. -/
theorem ok_of {ε α : Type} {x : Except ε α} (h : x.toBool = true) : ∃ y, x = .ok y := by
  cases x with
  | error e => simp [Except.toBool] at h
  | ok y => exact ⟨y, rfl⟩

theorem lanes_ok {ε α : Type} (d : α) {ls : List Nat} {f : Nat → Except ε α} (h : ls.all (fun l => (f l).toBool) = true) :
    ∃ acc : Nat → α, ∀ l ∈ ls, f l = .ok (acc l) := by
  refine ⟨fun l => match f l with | .ok a => a | .error _ => d, fun l hl => ?_⟩
  obtain ⟨y, hy⟩ := ok_of (List.all_eq_true.mp h l hl)
  simp [hy]

def s64 : Slot := ⟨.s 1, .s 2, .s 3, .zero, ty 6 0, 0⟩
def n64 : Slot := ⟨.s 1, .s 2, .s 3, .zero, ty 7 0, 0⟩
def none' : Slot := ⟨.zero, .zero, .zero, .zero, 0, 0⟩
def g1 : Group := own id
def st1 : State := at' g1

theorem witness_ScalarArithmetic : ∀ i ∈ [Instr.add s64, .sub s64, .mul s64, .mulh s64, .mulhn n64, .min s64, .max s64,
    .minn n64, .maxn n64, .sel { s64 with c := .s 4 }, .lea { s64 with c := .imm 0, imm := 63 }], Ready i st1 g1 :=
  ready_all (by decide +kernel)

theorem witness_ScalarBits : ∀ i ∈ [Instr.and s64, .or s64, .xor s64, .andn s64, .shl s64, .shr s64, .sar s64, .rol s64,
    .ror s64, .cmp { s64 with mod := ty 6 320 }, .clz { s64 with b := .zero }, .ctz { s64 with b := .zero },
    .popc { s64 with b := .zero }, .brev { s64 with b := .zero }], Ready i st1 g1 :=
  ready_all (by decide +kernel)

theorem witness_ScalarFields : ∀ i ∈ [Instr.bfx s64, .bfxs s64, .bfi { s64 with c := .s 4 }], Ready i st1 g1 :=
  ready_all (by decide +kernel)

def g2 : Group := own (sN 3 1)
theorem witness_ScalarDivide :
    (∀ i ∈ [Instr.div s64, .divn n64, .rem s64, .remn n64], Ready i (at' g2) g2 ∧ Ready i st1 g1) ∧
    lowB s64 g2.r ≠ 0 ∧ lowB n64 g2.r ≠ 0 ∧ lowB s64 g1.r = 0 ∧ lowB n64 g1.r = 0 :=
  ⟨fun i hi => ⟨ready_all (by decide +kernel) i hi, ready_all (by decide +kernel) i hi⟩, by decide +kernel⟩

/-- The group with its registers changed, at the state in which it stands. -/
def gR (f : Regs → Regs) : Group := own f
def gSup : Group := gR fun r => { r with sup := true }
def srd (n : Nat) : Slot := ⟨.s 1, .x (BitVec.ofNat 6 n), .zero, .zero, 0, 0⟩
def swr (n : Nat) : Slot := ⟨.x (BitVec.ofNat 6 n), .s 2, .zero, .zero, 0, 0⟩

theorem witness_Moves :
    (∀ i ∈ [Instr.nop none', .movi { none' with dst := .s 1 }, .mov { none' with dst := .s 1, a := .s 2 }, .srd (srd 28),
      .swr (swr 28), .srd (srd 32), .swr (swr 32)], Ready i st1 g1) ∧
    (∀ i ∈ [Instr.srd (srd 36), .swr (swr 36)], Ready i (at' gSup) gSup) ∧ gSup.r.sup = true ∧ g1.r.sup = false ∧
    st1.special st1.cur 28 ≠ none ∧ st1.special st1.cur 32 ≠ none ∧ (at' gSup).special loneGroup 36 ≠ none :=
  ⟨ready_all (by decide +kernel), ready_all (by decide +kernel), by decide +kernel⟩

theorem witness_Moves_lpart :
    (let g := gR (sN 2 4); Ready (.swr (swr 1)) (at' g) g ∧ (at' g).special loneGroup 1 ≠ none ∧
      ((g.r.getS 2).extractLsb' 0 3).toNat < 5) ∧
    (let g := gR (sN 2 5); Ready (.swr (swr 1)) (at' g) g ∧ 5 ≤ ((g.r.getS 2).extractLsb' 0 3).toNat) :=
  ⟨⟨ready_of (by decide +kernel), by decide +kernel⟩, ready_of (by decide +kernel), by decide +kernel⟩

def sere1 : Slot := ⟨.zero, .s 4, .zero, .zero, 0, 8⟩
def serb1 : Slot := ⟨.s 4, .zero, .zero, .zero, 0, 8⟩
def part (n : Nat) : Slot := ⟨.zero, .zero, .imm 0, .zero, 0, BitVec.ofNat 32 n⟩
def gSerial : Group := gR fun r => { r with serial := true }

theorem witness_Masks :
    (∀ i ∈ [Instr.mblk sere1, .part (part 4), .part (part 5), .serb serb1, .sere sere1], Ready i st1 g1) ∧
    (∀ i ∈ [Instr.serb serb1, .sere sere1], Ready i (at' gSerial) gSerial) ∧
    (scalarOf (part 4) g1.r (part 4).b).toNat = 4 ∧ (scalarOf (part 5) g1.r (part 5).b).toNat = 5 ∧
    g1.r.serial = false ∧ gSerial.r.serial = true ∧ gSerial.r.exm ≠ 0 ∧ lowest gSerial.r.exm = gSerial.r.exm :=
  ⟨ready_all (by decide +kernel), ready_all (by decide +kernel), by decide +kernel⟩

def brc1 : Slot := ⟨.zero, .s 4, .s 5, .zero, ty 6 0, 8⟩
theorem witness_Branches :
    (∀ i ∈ [Instr.br { none' with imm := 8 }, .brc brc1, .jmp { none' with a := .s 4 }, .ret { none' with a := .s 4 },
      .call { none' with dst := .s 1, imm := 8 }, .calli { none' with dst := .s 1, a := .s 1 }], Ready i st1 g1) ∧
    (let o := { brc1 with mod := ty 6 384 }
     st1.group? st1.cur = some g1 ∧ placeOk (.brc o) st1.cur = true ∧ g1.deny = none ∧ 6 ≤ o.cond) :=
  ⟨ready_all (by decide +kernel), by decide +kernel⟩

def handled : State := { st1 with launches := kinsert base.launches 1 { loneLaunch with trapPc := 0x10040 } }
theorem witness_TrapEntry : (∀ c ∈ [Cause.misaligned, .trapInsn, .divide],
    handled.group? handled.cur = some g1 ∧ isCallable handled.cur = false ∧ c ≠ .translation ∧
    ¬(c = .debug ∧ handled.myDbg.att = true) ∧ g1.r.taskId = 0 ∧ g1.r.sup = false ∧ handled.myLaunch.trapPc ≠ 0) ∧
    handled.evCount < 255 ∧ 255 ≤ ({ handled with evTail := handled.evHead - 1 } : State).evCount ∧
    (handled.modMe fun g => { g with deny := none }).parkRoom = true := by
  decide +kernel

theorem witness_SystemInstructions :
    (∀ i ∈ [Instr.eret none', .trap none', .svc none', .brk none'], Ready i st1 g1) ∧ Ready (.eret none') (at' gSup) gSup ∧
    gSup.r.trapAt = none ∧ (let g := gR fun r => { r with sup := true, trapAt := some 0x10041, epc := 0x10041 }
      Ready (.eret none') (at' g) g) ∧
    st1.myDbg.atBrk = false ∧
    (let s := st1.setDbg st1.myStall g1.slot { DbgCtl.off with att := true, atBrk := true }
     Ready (.brk none') s g1 ∧ s.myDbg.atBrk = true) :=
  ⟨ready_all (by decide +kernel), ready_of (by decide +kernel), by decide +kernel, ready_of (by decide +kernel),
   by decide +kernel, ready_of (by decide +kernel), by decide +kernel⟩

/-- Stable 0 has been synchronised, the lone group's stable. -/
def synced : State := st1.modStable 0 fun x => { x with synced := true }
theorem witness_Clocks :
    (∀ s ∈ [st1, synced], ∀ i ∈ [Instr.ltime { none' with dst := .s 1 }, .gtime { none' with dst := .s 1 }, .ifence none'],
      Ready i s g1) ∧ g1.logFull (Effect.of 3 g1 g1.r.pc [.s 1 0]) = false ∧ g1.st = 0 ∧ g1.storesGranted = true ∧
    (synced.stable (stableOf synced.here)).synced = true ∧ synced.clockClear (stableOf synced.here) = true := by
  refine ⟨fun s hs => ?_, by decide +kernel⟩
  simp only [List.mem_cons, List.not_mem_nil, or_false] at hs
  obtain rfl | rfl := hs
  all_goals exact ready_all (by decide +kernel)

def vec (code rest : Nat) : Slot := ⟨.v 2, .v 4, .v 6, .zero, ty code rest, 0⟩
def vecC (code rest : Nat) : Slot := { vec code rest with c := .v 8 }
def vec1 (code rest : Nat) : Slot := { vec code rest with b := .zero }

theorem witness_VectorArithmetic : ∀ i ∈ [Instr.vadd (vec 6 3), .vsub (vec 0 2), .vmul (vec 3 1), .vmulh (vec 4 0),
    .vmad (vecC 4 0), .vmin (vec 4 0), .vmax (vec 5 0), .vand (vec 5 0), .vor (vec 5 0), .vxor (vec 5 0),
    .vcmp (vec 4 320), .vsel (vecC 4 0), .vadds (vec 0 2)], Ready i st1 g1 := ready_all (by decide +kernel)

theorem witness_VectorBits : ∀ i ∈ [Instr.vshl (vec 6 3), .vshr (vec 0 2), .vsar (vec 3 1), .vclz (vec1 4 0),
    .vctz (vec1 4 0), .vffs (vec1 4 0), .vpopc (vec1 5 0), .vbrev (vec1 5 0), .vbfx (vec 4 0), .vbfi (vecC 7 3)],
    Ready i st1 g1 := ready_all (by decide +kernel)

theorem witness_RegisterWrites : let r := g1.r
    kwf 0 r.s = true ∧ kwf 0 r.v = true ∧ r.exm.getLsbD 0 = true ∧ r.exm.getLsbD 31 = false ∧ 3 < elemCount 8 ∧
    0 < elemCount 64 ∧ 6 ≠ (5 : Nat) := by decide +kernel

theorem witness_FloatArithmetic : ∀ i ∈ [Instr.fadd (vec 8 0), .hadd2 (vec 9 1), .fsub (vec 8 0), .fmul (vec 8 0),
    .hmul2 (vec 10 1), .fma (vecC 8 0), .hfma2 (vecC 9 1), .fmin (vec 8 0), .hmin2 (vec 9 1), .fmax (vec 8 0),
    .hmax2 (vec 9 1), .fcmp (vec 8 448), .hcmp2 (vec 9 1), .fclass (vec1 8 0), .frint (vec1 8 0), .frcp (vec1 8 0),
    .frsq (vec1 8 0), .fsqrt (vec1 8 2048), .fexp2 (vec1 8 0), .flog2 (vec1 8 0), .fsinp (vec1 8 0), .fcosp (vec1 8 0)],
    Ready i st1 g1 := ready_all (by decide +kernel)

theorem witness_FloatValues : (fmtF32.decode 0x7FC00000).isNan = true ∧ (fmtF16.decode 0x7E00).isNan = true ∧
    (fmtBF16.decode 0x7FC0).isNan = true ∧ 0x7FC00000 < 2 ^ fmtF32.bits := by decide +kernel

def cvt1 : Slot := ⟨.v 8, .v 9, .zero, .zero, ty 8 0, 0x0D⟩
def cvtd1 : Slot := ⟨.v 10, .v 11, .v 12, .zero, ty 9 1, 8⟩
def cvt2 : Slot := ⟨.v 8, .v 9, .zero, .zero, ty 0 1538, 8⟩
def gBig : Group := gR (vN 9 0 0x7F000000)
theorem witness_Conversions :
    (∀ i ∈ [Instr.cvt cvt1, .cvtd cvtd1, .vscale (vec 8 0)], Ready i st1 g1) ∧
    (∃ f : Nat → Nat, ∀ l ∈ g1.r.active, cvtElem cvt1 cvt1.sel (laneOf cvt1 g1.r cvt1.a cvt1.srcTy l) = .ok (f l)) ∧
    (∀ l ∈ g1.r.active, ∃ ys : List Nat,
      ((List.range 1).map fun e => cvtElem cvtd1 e (laneOf cvtd1 g1.r cvtd1.a cvtd1.srcTy l)) ++
      ((List.range 1).map fun e => cvtElem cvtd1 e (laneOf cvtd1 g1.r cvtd1.b cvtd1.srcTy l)) = ys.map Except.ok) ∧
    Ready (.cvt cvt2) (at' gBig) gBig ∧ gBig.r.exm ≠ 0 ∧ cvt2.srcTy ≠ .o4 ∧
    (∀ l ∈ gBig.r.active, cvtTo cvt2.ty cvt2.rnd cvt2.ovf
      (tyValue cvt2.srcTy (elem cvt2.srcTy.bits cvt2.sel (laneOf cvt2 gBig.r cvt2.a cvt2.srcTy l))) = none) := by
  refine ⟨ready_all (by decide +kernel), lanes_ok 0 (by decide +kernel), ?_, ready_of (by decide +kernel), by decide +kernel⟩
  intro l hl
  have h : g1.r.active = [0] := by decide +kernel
  rw [h, List.mem_singleton] at hl
  subst hl
  obtain ⟨a, ha⟩ := ok_of (x := cvtElem cvtd1 0 (laneOf cvtd1 g1.r cvtd1.a cvtd1.srcTy 0)) (by decide +kernel)
  obtain ⟨b, hb⟩ := ok_of (x := cvtElem cvtd1 0 (laneOf cvtd1 g1.r cvtd1.b cvtd1.srcTy 0)) (by decide +kernel)
  exact ⟨[a, b], by simp [List.range, List.range.loop, ha, hb]⟩

def gshf1 : Slot := ⟨.v 2, .v 4, .s 5, .v 6, 0, 0⟩
theorem witness_GroupShuffle : Ready (.gshf gshf1) st1 g1 ∧ g1.r.exm ≠ 0 ∧ g1.ld < 63 ∧ gshf1.wid ≠ 3 ∧
    (∀ l ∈ g1.r.active, srcIndex (32 >>> g1.r.lpart.toNat) l (laneOf gshf1 g1.r gshf1.c .n32 l) = some 0) :=
  ⟨ready_of (by decide +kernel), by decide +kernel⟩

def xch : Slot := ⟨.v 2, .v 4, .imm 0, .zero, 0, 1⟩
theorem witness_LaneExchange : ∀ i ∈ [Instr.shfl xch, .vbcast xch, .shflx xch, .shflup xch, .shfldn xch,
    .vidx { xch with a := .zero }, .vlane { xch with dst := .s 1 }, .voteany (vec1 0 0), .voteall (vec1 0 0),
    .matchLanes (vec1 5 0), .ballot { vec1 0 0 with dst := .s 1 }], Ready i st1 g1 := ready_all (by decide +kernel)

theorem witness_Reductions : (∀ i ∈ [Instr.redadd (vec1 4 0), .redmin (vec1 5 0), .redmax (vec1 4 0), .scanadd (vec1 4 0),
    .redfadd (vec1 8 0), .scanfadd (vec1 8 0)], Ready i st1 g1) ∧ g1.r.active = [0] ∧ g1.r.lpart.toNat ≤ 4 ∧
    (vec1 5 0).ty ≠ .f32 := ⟨ready_all (by decide +kernel), by decide +kernel⟩

/-! #### Memory -/

/-- The lone group with the data page's address in s2, an own-scratchpad offset in s3, small values elsewhere. -/
def gM : Group := gR (sN 2 0x20000 ∘ sN 3 0x40 ∘ sN 4 1 ∘ sN 5 1)
def stM : State := at' gM
def acc0 : Acc := { lane := 0, va := 0, loc := 0, bytes := 0, uncached := false, value := 0, compare := 0 }
def ldg (ord : Nat) : Slot := ⟨.v 6, .s 2, .zero, .zero, ty 4 (1024 * ord), 8⟩
def lds (space : Nat) : Slot := ⟨.s 6, .s (if space = 1 then 3 else 2), .zero, .zero, ty 4 (8 * space), 8⟩
def ldl (ord : Nat) : Slot := ⟨.v 6, .s 3, .zero, .zero, ty 4 (1024 * ord), 8⟩
def ldline1 (ord : Nat) : Slot := ⟨.v 6, .s 2, .zero, .zero, BitVec.ofNat 18 (1024 * ord), 128⟩

theorem witness_GlobalLoads :
    (∀ i ∈ [Instr.ldG (ldg 0), .ldG (ldg 2), .ldline (ldline1 0), .ldline (ldline1 2), .lds (lds 0)], Ready i stM gM) ∧
    (∃ acc : Nat → Acc, ∀ l ∈ gM.r.active, stM.globalAcc l (eaGlobal (ldg 0) gM.r l) 4 .read = .ok (acc l)) ∧
    (∃ acc : Nat → Acc, ∀ l ∈ gM.r.active, stM.lineAcc (eaScalar (ldline1 0) gM.r) l = .ok (acc l)) ∧
    (∃ a, stM.globalAcc 0 (eaScalar (lds 0) gM.r) 4 .read = .ok a) ∧ (lds 0).space = 0 ∧ gM.r.active ≠ [] ∧
    stM.pendingByOther 0x20008 4 = false ∧ stM.pendingByOther 0x20080 4 = false ∧ gM.ld < 63 ∧
    (∀ op ∈ gM.ops, op.performed = true) ∧ (after (.ldG (ldg 0)) stM).last = .retired ∧
    (after (.ldline (ldline1 0)) stM).last = .retired :=
  ⟨ready_all (by decide +kernel), lanes_ok acc0 (by decide +kernel), lanes_ok acc0 (by decide +kernel),
   ok_of (by decide +kernel), by decide +kernel⟩

def opOf (kind : OpKind) : Op := Op.make kind .s32 [.v 6] [{ acc0 with loc := 0x20008, bytes := 4, uncached := true }] []
/-- The group with one outstanding operation. -/
def gOp (op : Op) : Group := { gM with ops := [op], ld := op.countsLd.toNat, st := (!op.countsLd).toNat }
def loading : Op := { opOf .load with performed := false }

theorem witness_LoadCompletion : let g := gOp loading
    (at' g).group? loneGroup = some g ∧ g.ops[0]? = some loading ∧ loading.kind = .load ∧ loading.countsLd = true ∧
    loading.performed = false ∧ ∀ a ∈ loading.accs, a.uncached = true ∧ ∀ i, i < a.bytes → g.ownByte? (a.loc + i) = none := by
  decide +kernel

def lofty : State :=
  { stM with cfg := { base.cfg with ls := 0x100 }, loftmap := [(0, 0x0000010000000000)] }
theorem witness_LocalLoads :
    (∀ i ∈ [Instr.ldL (ldl 0), .ldL (ldl 2), .lds (lds 1)], Ready i stM gM) ∧
    (∃ acc : Nat → Acc, ∀ l ∈ gM.r.active, stM.ownAcc l (eaOffset (ldl 0) gM.r l) 4 .read = .ok (acc l)) ∧
    (∃ a, stM.ownAcc 0 (eaScalar (lds 1) gM.r) 4 .read = .ok a) ∧ (lds 1).space = 1 ∧ (lds 2).space = 2 ∧
    (∀ i ∈ [Instr.ldF (ldl 0), .lds (lds 2)], Ready i lofty gM) ∧
    (∃ off : Nat → Nat, ∀ l ∈ gM.r.active, lofty.checkLoft (gangOf lofty.cur) (eaOffset (ldl 0) gM.r l) 4 = .ok (off l)) ∧
    (∃ off, lofty.checkLoft (gangOf lofty.cur) (eaScalar (lds 2) gM.r) 4 = .ok off) ∧ gM.r.exm ≠ 0 ∧ gM.ld < 63 :=
  ⟨ready_all (by decide +kernel), lanes_ok acc0 (by decide +kernel), ok_of (by decide +kernel), by decide +kernel,
   by decide +kernel, ready_all (by decide +kernel), lanes_ok 0 (by decide +kernel), ok_of (by decide +kernel),
   by decide +kernel⟩

def stg : Slot := ⟨.zero, .s 2, .s 4, .zero, ty 4 0, 8⟩
def stl : Slot := ⟨.zero, .s 3, .s 4, .zero, ty 4 0, 8⟩
def sts (space : Nat) : Slot := ⟨.zero, .s (if space = 1 then 3 else 2), .s 4, .zero, ty 4 (8 * space), 8⟩
theorem witness_GlobalStores :
    (∀ i ∈ [Instr.stG stg, .sts (sts 0)], Ready i stM gM) ∧ stg.ord = 0 ∧ (sts 0).ord = 0 ∧ (sts 0).space = 0 ∧
    (∃ acc : Nat → Acc, ∀ l ∈ gM.r.active, stM.globalAcc l (eaGlobal stg gM.r l) 4 .write = .ok (acc l)) ∧
    (∃ a, stM.globalAcc 0 (eaScalar (sts 0) gM.r) 4 .write = .ok a) ∧ gM.st < 63 ∧ gM.r.exm ≠ 0 ∧
    (∀ op ∈ gM.ops, op.performed = true) ∧ ∀ i, i < 4 → stM.ownerOf (0x20008 + i) ≠ some stM.here :=
  ⟨ready_all (by decide +kernel), by decide +kernel, by decide +kernel, by decide +kernel, lanes_ok acc0 (by decide +kernel),
   ok_of (by decide +kernel), by decide +kernel⟩

theorem canonical_of {s : State} (h : s.gmem.wf = true ∧ s.loft.wf = true ∧ kwf 0 s.owners = true ∧
    kwf false s.poison = true ∧ kwf Barn.fresh s.barns = true ∧ kwf Stall.fresh s.stalls = true ∧
    ∀ p ∈ s.stalls, p.2.scratch.wf = true) : s.Canonical :=
  ⟨h.1, h.2.1, h.2.2.1, h.2.2.2.1, h.2.2.2.2.1, h.2.2.2.2.2.1, h.2.2.2.2.2.2⟩

theorem stM_canonical : stM.Canonical := canonical_of (by decide +kernel)

theorem witness_LocalStores :
    (∀ i ∈ [Instr.stL stl, .sts (sts 1)], Ready i stM gM) ∧ stl.ord = 0 ∧ (sts 1).ord = 0 ∧ (sts 1).space = 1 ∧
    (∃ acc : Nat → Acc, ∀ l ∈ gM.r.active, stM.ownAcc l (eaOffset stl gM.r l) 4 .write = .ok (acc l)) ∧
    (∃ a, stM.ownAcc 0 (eaScalar (sts 1) gM.r) 4 .write = .ok a) ∧ gM.st < 63 ∧ gM.r.exm ≠ 0 ∧ stM.Canonical :=
  ⟨ready_all (by decide +kernel), by decide +kernel, by decide +kernel, by decide +kernel, lanes_ok acc0 (by decide +kernel),
   ok_of (by decide +kernel), by decide +kernel, by decide +kernel, stM_canonical⟩

def str : Slot := ⟨.zero, .s 3, .s 4, .s 5, ty 4 0, 8⟩
def strCnt : Slot := ⟨.zero, .s 3, .s 4, .s 5, ty 4 32, 32⟩
theorem witness_RemoteStores : (∀ i ∈ [Instr.stR str, .stRCnt strCnt], Ready i stM gM) ∧ str.ord = 0 ∧ strCnt.ord = 0 ∧
    gM.st < 63 ∧ gM.r.exm ≠ 0 ∧ (∀ l ∈ gM.r.active, (eaOffset str gM.r l).toNat % str.ty.bytes = 0) ∧
    strCnt.imm.toNat % 32 = 0 ∧ ∀ l ∈ gM.r.active, (baseOffset gM.r strCnt.a l).toNat % strCnt.ty.bytes = 0 :=
  ⟨ready_all (by decide +kernel), by decide +kernel⟩

/-- The lone gang's launch with a receive range of 256 bytes. -/
def receiving : State → State := fun s =>
  { s with launches := kinsert s.launches 1 { loneLaunch with
      scrSize := 0x8000, roles := loneLaunch.roles.map fun r => { r with rranges := [{ off := 0, len := 256 }] } } }
def parcel (off : Nat) : Delivery :=
  { parts := [.bytes 0 off [1, 2]], checked := false, bound := [], failed := none, store := none }
/-- A group with one delivery inside the range, one across its end, and one after them both. -/
def gParcels (ps : List Delivery) : Group := { gM with deliveries := ps }
theorem witness_StagingCheck : (∀ p ∈ [(0, true), (255, false)], let g := gParcels [parcel p.1, parcel 8]
      let s := receiving (at' g)
      s.group? loneGroup = some g ∧ g.deliveries = [] ++ parcel p.1 :: [parcel 8] ∧ (parcel p.1).checked = false ∧
      ((parcel p.1).parts.all fun x => (receiver s loneGroup x).isSome) = p.2) ∧
    (let g := gParcels [{ parcel 0 with checked := true }, parcel 8]
     (receiving (at' g)).group? loneGroup = some g ∧
     g.deliveries = [{ parcel 0 with checked := true }] ++ parcel 8 :: []) ∧
    (let g := gParcels [{ parcel 0 with checked := true }]
     (receiving (at' g)).group? loneGroup = some g ∧ ∀ x ∈ g.deliveries, x.checked = true) := by
  decide +kernel

def atom (op : Nat) (a : BitVec 6) : Slot := ⟨.v 6, .s a, .v 8, .zero, ty 5 (1024 + 64 * op), 8⟩
theorem witness_Atomics :
    (∀ i ∈ [Instr.atomG (atom 0 2), .atomG (atom 7 2), .atomL (atom 7 3), .atomL (atom 0 3)], Ready i stM gM) ∧
    (atom 0 2).ord = 1 ∧ gM.r.active = [0] ∧ gM.ld < 63 ∧ gM.st < 63 ∧
    (∃ a, stM.atomicAcc 0 (eaGlobal (atom 0 2) gM.r 0) 4 = .ok a) ∧ (∃ a, stM.ownAcc 0 (eaOffset (atom 0 3) gM.r 0) 4 .update = .ok a) ∧
    (∀ op ∈ gM.ops, op.performed = true) ∧ gM.pendingAt 0x20008 4 = false ∧
    (∀ e : Effect, e.kind = 1 → e.payload ≤ 32 → gM.logFull e = false) := by
  refine ⟨ready_all (by decide +kernel), by decide +kernel, by decide +kernel, by decide +kernel, by decide +kernel,
    ok_of (by decide +kernel), ok_of (by decide +kernel), by decide +kernel, by decide +kernel, fun e _ h => ?_⟩
  have h0 : gM.logSize = 0 := by decide +kernel
  simp only [Group.logFull, Effect.size, h0, decide_eq_false_iff_not]
  omega

def ldr : Slot := ⟨.v 6, .s 3, .zero, .s 4, ty 4 0, 8⟩
def atomr : Slot := ⟨.v 6, .s 3, .v 8, .s 4, ty 5 1024, 8⟩
def tlbi : Slot := ⟨.s 1, .s 2, .imm 0, .zero, 0, 0⟩
def tlbiAll : Slot := ⟨.s 1, .zero, .zero, .zero, 4, 0⟩
def voli : Slot := ⟨.s 1, .s 2, .imm 0, .s 4, 0, 1⟩
def claim1 : Slot := ⟨.zero, .s 2, .imm 0, .zero, 0, 0⟩
def tcall1 : Slot := ⟨.v 6, .v 8, .s 2, .zero, 0, 0⟩
def gReply : Group := gOp { opOf .replied with dst := [], result := [.v 6 0 5] }

theorem witness_RepliedInstructions :
    (∀ i ∈ [Instr.ldR ldr, .atomR atomr, .claim claim1, .volinv voli, .tlbinv tlbi, .tlbinvAll tlbiAll, .tcall tcall1],
      Ready i (at' gReply) gReply) ∧ answered gReply { opOf .replied with dst := [], result := [.v 6 0 5] } ∧
    ldr.ord = 0 ∧ atomr.ord = 1 ∧ gReply.r.exm ≠ 0 :=
  ⟨ready_all (by decide +kernel), ⟨by decide +kernel, rfl⟩, by decide +kernel⟩

theorem witness_SentRequests :
    (∀ i ∈ [Instr.ldR ldr, .atomR atomr, .volinv voli, .tlbinv tlbi, .tlbinvAll tlbiAll, .claim claim1], Ready i stM gM) ∧
    gM.errand? = none ∧ gM.st = 0 ∧ gM.ld < 63 ∧ gM.storesGranted = true ∧ gM.r.exm ≠ 0 ∧ atomr.ord ≤ 2 ∧
    (∀ e : Effect, e.payload ≤ 16 → gM.logFull e = false) ∧ (scalarOf claim1 gM.r claim1.b).toNat % 256 + 1 = 1 ∧
    (stM.checkClaim (pageAt (eaScalar claim1 gM.r) 0)).toBool = true ∧ (eaScalar claim1 gM.r).toNat % 65536 = 0 := by
  refine ⟨ready_all (by decide +kernel), by decide +kernel, by decide +kernel, by decide +kernel, by decide +kernel,
    by decide +kernel, by decide +kernel, fun e h => ?_, by decide +kernel⟩
  have h0 : gM.logSize = 0 := by decide +kernel
  simp only [Group.logFull, Effect.size, h0, decide_eq_false_iff_not]
  omega

def tagged : State := stM.setGang loneGang { stM.gang loneGang with tags := 6 }
def waits (m : Nat) : Slot := ⟨.zero, .zero, .imm 0, .zero, 0, BitVec.ofNat 32 m⟩
theorem witness_Waits :
    (∀ i ∈ [Instr.acq none', .fence none', .twaitall (waits 6), .twaitall (waits 7), .twaitany { waits 6 with dst := .s 1 },
      .twaitany { waits 0 with dst := .s 1 }, .tffs { waits 6 with dst := .s 1 }, .waitc none'], Ready i tagged gM) ∧
    (∀ op ∈ gM.ops, op.performed = true) ∧ gM.storesGranted = true ∧
    tagged.gang? (gangOf tagged.cur) = some (tagged.gang loneGang) ∧
    (let m := fun n => scalarOf (waits n) gM.r (waits n).b
     let x := tagged.gang loneGang
     x.tags &&& m 6 = m 6 ∧ x.tags &&& m 7 ≠ m 7 ∧ m 6 ≠ 0 ∧ m 0 = 0 ∧ (x.tags &&& m 6).getLsbD 1 = true ∧
     ∀ k, k < 1 → (x.tags &&& m 6).getLsbD k = false) ∧
    gM.ld ≤ 0 ∧ (let g := gOp loading; Ready (.waitc none') (at' g) g ∧ none'.imm.toNat / 256 ^ 0 % 256 < g.ld) ∧
    gM.logFull (Effect.of 5 gM 6 [.s 1 1]) = false :=
  ⟨ready_all (by decide +kernel), by decide +kernel, by decide +kernel, by decide +kernel, by decide +kernel,
   by decide +kernel, ⟨ready_of (by decide +kernel), by decide +kernel⟩, by decide +kernel⟩

def line1 (own : BitVec 16) : Line := { loft := false, tag := 0, valid := 1, owned := own, dirty := 0, data := 0 }
theorem witness_Waits_lines : (line1 0).loft = false ∧ (line1 0).owned = 0 ∧ (line1 1).owned ≠ 0 := by decide

/-! #### Boundaries -/

theorem starts_of {g : Group} (h : g.r.serial = false ∧ g.ld = 0 ∧ g.st = 0 ∧ g.zlr = [] ∧ g.storeFault = none ∧
    g.stage42 = .none ∧ g.incomplete = none) : Starts g :=
  ⟨h.1, h.2.1, h.2.2.1, h.2.2.2.1, h.2.2.2.2.1, h.2.2.2.2.2.1, h.2.2.2.2.2.2⟩

theorem credits_of {u : State} (h : u.me.ld = 0 ∧ u.me.st = 0 ∧ u.me.zlr = [] ∧ u.me.storeFault = none ∧
    u.me.deliveries = [] ∧ u.itemRoom u.here u.me.stagedItems = true ∧ u.intakeRoom u.me = true ∧
    u.blockRoom true = true ∧ u.blockRoom false = true) : Credits u :=
  ⟨⟨h.1, h.2.1, h.2.2.1, h.2.2.2.1, by simp [h.2.2.2.2.1], h.2.2.2.2.2.1, h.2.2.2.2.2.2.1⟩,
   fun sec => by cases sec <;> simp [h.2.2.2.2.2.2.2]⟩

/-- A check that gives a known value. -/
theorem gives_of {ε α : Type} [DecidableEq α] {x : Except ε α} {y : α}
    (h : (match x with | .ok z => decide (z = y) | .error _ => false) = true) : x = .ok y := by
  cases x with
  | error e => simp at h
  | ok z => simp at h; rw [h]

/-- The scratchpad of the group's stall with bytes written, and the global memory with a word written. -/
def State.withScr (s : State) (off n x : Nat) : State := s.scrWriteN 0 off n x
def State.withWord (s : State) (loc i : Nat) (x : Word) : State := s.setWordAt loc i x

theorem witness_StintClose : stM.group? stM.cur = some gM ∧ gM.wrote = [] ∧ kwf 0 gM.r.s = true ∧ kwf 0 gM.r.v = true ∧
    (let t := stM.grantWord 0 0x8000 [(0x20000, 7)]
     t.gmem.wf = true ∧ t.ownerOf (4 * 0x8000) = some 0 ∧ homeOfLoc (4 * 0x8000) ≠ 0x1FF) := by decide +kernel

def gbar1 : Instr := .gbar none'
def barr1 : Slot := { none' with dst := .s 1, a := .s 3, b := .s 6 }
def barrR : Slot := { barr1 with c := .s 4 }
def fset1 : Slot := { none' with b := .imm 0, imm := 7 }
def boundaries : List Instr :=
  [.rel none', .stint none', .barr barr1, .barrRemote barrR, .fset fset1, .unlock { none' with a := .s 2 },
   .enq { none' with a := .s 2, b := .s 4 }, .ybar { none' with dst := .s 1, a := .s 2 },
   .stG { stg with mod := ty 4 3072 }, .stL { stl with mod := ty 4 3072 }, .stR { str with mod := ty 4 3072 },
   .stRCnt { strCnt with mod := ty 4 3104 }, .sts { sts 0 with mod := ty 4 3072 },
   .atomG { atom 0 2 with mod := ty 5 3072 }, .atomL { atom 0 3 with mod := ty 5 4096 },
   .atomR { atomr with mod := ty 5 3072 }]
def gDone : Group := { gM with stage42 := .effectDone }
def gSer : Group := gR (fun r => { r with serial := true })
def gTask : Group := gR (sN 2 0x20000 ∘ sN 3 0x40 ∘ fun r => { r with taskId := 0x20000 })

/-- A gang whose parked group's record fills the record area, and a group whose section would need two blocks. -/
def gWide : Group := { gM with carryV := 64 }
def sNoBlock : State := (at' gWide).setGroup (groupKey loneGang 1) { gM with standing := .parked .credit, vbudget := 2 ^ 21 }

theorem witness_TrapEntry_noBlock :
    let s := (at' g1).setGroup (groupKey loneGang 1) { gM with standing := .parked .credit, vbudget := 2 ^ 21 + 250 }
    s.group? s.cur = some g1 ∧ isCallable s.cur = false ∧ (s.modMe fun g => { g with deny := none }).parkRoom = false := by
  decide +kernel

theorem witness_Boundaries :
    (∀ i ∈ gbar1 :: boundaries, Ready i stM gM) ∧ Starts gM ∧ Credits stM ∧ gM.r.taskId = 0 ∧ gM.cp = 0 ∧ gM.tl = 0 ∧
    stM.clearsQueued = false ∧ Credits (stM.imageBanks stM.here (gangOf stM.cur)) ∧
    (∀ i ∈ gbar1 :: boundaries, Ready i (at' gDone) gDone) ∧ gDone.r.serial = false ∧ Credits (at' gDone) ∧
    gDone.r.taskId = 0 ∧
    (∀ i ∈ boundaries, Ready i (at' gSer) gSer) ∧ gSer.r.serial = true ∧
    (let g := gOp loading; ∀ i ∈ [Instr.rel none', .stint none'], Ready i (at' g) g ∧ g.sent = false ∧ g.ld ≠ 0) ∧
    Ready gbar1 (at' gTask) gTask ∧ gTask.r.taskId ≠ 0 ∧
    Ready (.rel none') sNoBlock gWide ∧ Starts gWide ∧ Creditable sNoBlock ∧ sNoBlock.blockRoom true = false :=
  ⟨ready_all (by decide +kernel), starts_of (by decide +kernel), credits_of (by decide +kernel), by decide +kernel,
   by decide +kernel, by decide +kernel, by decide +kernel, credits_of (by decide +kernel), ready_all (by decide +kernel),
   by decide +kernel, credits_of (by decide +kernel), by decide +kernel, ready_all (by decide +kernel), by decide +kernel,
   fun i hi => ⟨ready_all (by decide +kernel) i hi, by decide +kernel⟩, ready_of (by decide +kernel), by decide +kernel,
   ready_of (by decide +kernel), starts_of (by decide +kernel),
   ⟨by decide +kernel, by decide +kernel, by decide +kernel, by decide +kernel, by decide +kernel, by decide +kernel,
    by decide +kernel⟩, by decide +kernel⟩

def unlock1 : Slot := { none' with a := .s 2 }
def enq1 : Slot := { none' with a := .s 2, b := .s 4 }
def ybar1 : Slot := { none' with dst := .s 1, a := .s 2 }
def gHeld : Group := { gM with heldReply := some (gM.r.pc, [.s 1 5]) }
/-- A barrier object for 2 arrivals at 0x40. -/
def sObj : State := State.withScr (State.withScr stM 0x40 4 2) 0x54 4 1

theorem witness_BoundaryEffects_replies :
    (∀ i ∈ [Instr.barr barr1, .fset fset1, .unlock unlock1, .enq enq1, .ybar ybar1], Ready i (at' gHeld) gHeld) ∧
    Starts gHeld ∧ gHeld.heldReply = some (gHeld.r.pc, [.s 1 5]) ∧
    Credits ((at' gHeld).setRegs (gHeld.r.writes [.s 1 5])) :=
  ⟨ready_all (by decide +kernel), starts_of (by decide +kernel), by decide +kernel, credits_of (by decide +kernel)⟩

theorem witness_BoundaryEffects_barr : Starts gM ∧ gM.heldReply = none ∧ Ready (.barr barr1) sObj gM ∧
    sObj.ownStruct (gangOf sObj.cur) (eaScalar barr1 gM.r) 32 32 = .ok 0x40 ∧ sObj.objectOk sObj.here 0x40 = true ∧
    sObj.countOk sObj.here 0x40 ((scalarOf barr1 gM.r barr1.b).setWidth 32) = true ∧
    Credits (replied (sObj.updateObject sObj.here 0x40 1 0)
      [.s barr1.dst.num (BitVec.ofNat 64 (sObj.objWord sObj.here 0x40 4))]) :=
  ⟨starts_of (by decide +kernel), by decide +kernel, ready_of (by decide +kernel), gives_of (by decide +kernel),
   by decide +kernel, by decide +kernel, credits_of (by decide +kernel)⟩

/-- A reply that counts in neither LD nor ST, as the object's round at another stall does. -/
def barrReply : Op := { opOf .replied with dst := [], result := [.s 1 5], accs := [] }
def gBarr : Group := { gM with ops := [barrReply] }
theorem witness_BoundaryEffects_barrRemote : Starts gBarr ∧ gBarr.heldReply = none ∧ answered gBarr barrReply ∧
    Ready (.barrRemote barrR) (at' gBarr) gBarr ∧
    Credits (replied ((at' gBarr).setMe gBarr.dropErrand) barrReply.result) :=
  ⟨starts_of (by decide +kernel), by decide +kernel, ⟨by decide +kernel, rfl⟩, ready_of (by decide +kernel),
   credits_of (by decide +kernel)⟩

/-- A queue of four entries at 0x20000, empty, full, and full with its reserved entry of depth 0 taken. -/
def sQueue (tail rsv : Word) : State := State.withWord (State.withWord (State.withWord stM 0x20000 0 4) 0x20000 2 tail) 0x20000 3 rsv
def theQueue (tail rsv : Word) : QueueAt := { loc := 0x20000, cap := 4, head := 0, tail := tail, rsv := rsv }

theorem witness_BoundaryEffects_tasks : Starts gM ∧ gM.heldReply = none ∧ Starts gTask ∧ gTask.heldReply = none ∧
    Ready (.fset fset1) (at' gTask) gTask ∧ gTask.r.taskId ≠ 0 ∧
    (at' gTask).homeAcc true gTask.r.taskId 128 1 .write = .ok 0x20000 ∧ (at' gTask).recordOk 0x20000 = true ∧
    recState ((at' gTask).wordAt 0x20000 3) ≠ 3 ∧
    Credits (replied (((at' gTask).setWordAt 0x20000 2 (scalarOf fset1 gTask.r fset1.b)).setRecord 0x20000 3 0) []) ∧
    (let s := State.withWord stM 0x20000 0 1
     Ready (.unlock unlock1) s gM ∧ (∃ a, s.atomicAcc 0 (eaScalar unlock1 gM.r) 8 = .ok a ∧ s.wordAt a.loc 0 = gM.r.taskId ||| 1 ∧
       Credits (replied ((s.setWordAt a.loc 0 0).modMe fun g =>
         { g with locks := g.locks.filter fun p => p.1 != eaScalar unlock1 gM.r }) []))) :=
  ⟨starts_of (by decide +kernel), by decide +kernel, starts_of (by decide +kernel), by decide +kernel,
   ready_of (by decide +kernel), by decide +kernel, gives_of (by decide +kernel), by decide +kernel, by decide +kernel,
   credits_of (by decide +kernel), ready_of (by decide +kernel),
   ⟨{ acc0 with va := 0x20000, loc := 0x20000, bytes := 8 }, gives_of (by decide +kernel), by decide +kernel,
    credits_of (by decide +kernel)⟩⟩

theorem witness_BoundaryEffects_enq :
    (∀ p ∈ [(0, 0), (4, 0), (4, 1)], let s := sQueue p.1 p.2
      Ready (.enq enq1) s gM ∧ queueAt (eaScalar enq1 gM.r) s = .ok (theQueue p.1 p.2) ∧
      s.promiseIn (eaScalar enq1 gM.r) = none) ∧
    ((theQueue 0 0).tail - (theQueue 0 0).head).toNat < 4 ∧ 4 ≤ ((theQueue 4 0).tail - (theQueue 4 0).head).toNat ∧
    (theQueue 4 0).rsv.getLsbD (min gM.r.depth.toNat 3) = false ∧ (theQueue 4 1).rsv.getLsbD (min gM.r.depth.toNat 3) = true ∧
    entryAt (eaScalar enq1 gM.r) ((theQueue 0 0).tail.toNat % 4) (sQueue 0 0) = .ok 0x20040 ∧
    entryAt (eaScalar enq1 gM.r) (4 + min gM.r.depth.toNat 3) (sQueue 4 0) = .ok 0x20080 ∧
    Credits (replied ((((sQueue 0 0).setWordAt 0x20040 0 (scalarOf enq1 gM.r enq1.b)).setWordAt 0x20040 1 2).setWordAt
      0x20000 2 1) []) ∧
    Credits (replied ((((sQueue 4 0).setWordAt 0x20080 0 (scalarOf enq1 gM.r enq1.b)).setWordAt 0x20080 1 2).setWordAt
      0x20000 3 1) []) := by
  refine ⟨fun p hp => ?_, by decide +kernel, by decide +kernel, by decide +kernel, by decide +kernel,
    gives_of (by decide +kernel), gives_of (by decide +kernel), credits_of (by decide +kernel), credits_of (by decide +kernel)⟩
  simp only [List.mem_cons, List.not_mem_nil, or_false] at hp
  obtain rfl | rfl | rfl := hp
  all_goals exact ⟨ready_of (by decide +kernel), gives_of (by decide +kernel), by decide +kernel⟩

/-- A bound context of the lone launch in which stall 0 is to arrive twice. -/
def yard1 : Yard :=
  { Yard.free with bound := true, launch := gM.r.launchId, desc := 0x20000, yper := 2, masks := kset 0 [] 0 1 }
def sYard : State := stM.setYard stM.myYard yard1
theorem witness_BoundaryEffects_ybar : Ready (.ybar ybar1) sYard gM ∧
    yardFor (eaScalar ybar1 gM.r) sYard = .ok yard1 ∧ yard1.takesPart sYard.myStall = true ∧
    kget 0 yard1.arrived sYard.myStall < yard1.yper ∧
    Credits (replied (sYard.setYard sYard.myYard { yard1 with
        arrived := kset 0 yard1.arrived sYard.myStall (kget 0 yard1.arrived sYard.myStall + 1) })
      [.s ybar1.dst.num ((kget 0 yard1.rounds sYard.myStall).setWidth 64)]) :=
  ⟨ready_of (by decide +kernel), gives_of (by decide +kernel), by decide +kernel, by decide +kernel,
   credits_of (by decide +kernel)⟩

def stg3 : Slot := { stg with mod := ty 4 3072 }
def stl3 : Slot := { stl with mod := ty 4 3072 }
def sts3 (space : Nat) : Slot := { sts space with mod := ty 4 (8 * space + 3072) }
def accG : Acc := { acc0 with va := 0x20008, loc := 0x20008, bytes := 4 }
def accL : Acc := { acc0 with va := 0x48, loc := 0x48, bytes := 4 }

theorem witness_BoundaryEffects_stores : stg3.ord = 3 ∧ stl3.ord = 3 ∧ (sts3 0).ord = 3 ∧ (sts3 1).ord = 3 ∧
    (∀ i ∈ [Instr.stG stg3, .stL stl3, .sts (sts3 0), .sts (sts3 1)], Ready i stM gM) ∧
    (∀ l ∈ gM.r.active, stM.globalAcc l (eaGlobal stg3 gM.r l) 4 .write = .ok accG) ∧
    (∀ l ∈ gM.r.active, stM.ownAcc l (eaOffset stl3 gM.r l) 4 .write = .ok accL) ∧
    Credits (stM.storeAtOnce (gM.r.active.map fun _ => withValue stg3 gM.r accG)) ∧
    Credits (stM.storeOwn (gM.r.active.map fun _ => withValue stl3 gM.r accL)) ∧
    (∃ a, stsAcc (sts3 0) stM = .ok a ∧ Credits (stM.storeAtOnce [a])) ∧
    (∃ a, stsAcc (sts3 1) stM = .ok a ∧ Credits (stM.storeOwn [a])) := by
  have h : gM.r.active = [0] := by decide +kernel
  refine ⟨by decide +kernel, by decide +kernel, by decide +kernel, by decide +kernel, ready_all (by decide +kernel), ?_, ?_,
    credits_of (by decide +kernel), credits_of (by decide +kernel),
    ⟨{ accG with value := 1 }, gives_of (by decide +kernel), credits_of (by decide +kernel)⟩,
    ⟨{ accL with value := 1 }, gives_of (by decide +kernel), credits_of (by decide +kernel)⟩⟩
  all_goals rw [h]; simp only [List.mem_singleton, forall_eq]; exact gives_of (by decide +kernel)

def atom3 (ord : Nat) (a : BitVec 6) : Slot := ⟨.v 6, .s a, .v 8, .zero, ty 5 (1024 * ord), 8⟩
theorem witness_BoundaryEffects_atomics :
    (∀ ord ∈ [3, 4], (atom3 ord 2).ord = ord ∧
      (∀ i ∈ [Instr.atomG (atom3 ord 2), .atomL (atom3 ord 3)], Ready i stM gM) ∧
      (∀ l ∈ gM.r.active, stM.atomicAcc l (eaGlobal (atom3 ord 2) gM.r l) 4 = .ok accG) ∧
      (∀ l ∈ gM.r.active, stM.ownAcc l (eaOffset (atom3 ord 3) gM.r l) 4 .update = .ok accL) ∧
      (runGlobal (atom3 ord 2) (gM.r.active.map fun _ => withOperands (atom3 ord 2) gM.r accG) stM).toBool = true ∧
      Credits (replied (stM.runAtomics (bankRead stM.here) (bankWrite stM.here) (aopOf 0) .n32
        (gM.r.active.map fun _ => withOperands (atom3 ord 3) gM.r accL)).1 [])) := by
  have h : gM.r.active = [0] := by decide +kernel
  intro ord ho
  simp only [List.mem_cons, List.not_mem_nil, or_false] at ho
  obtain rfl | rfl := ho
  all_goals
    refine ⟨by decide +kernel, ready_all (by decide +kernel), ?_, ?_, by decide +kernel, credits_of (by decide +kernel)⟩
    all_goals rw [h]; simp only [List.mem_singleton, forall_eq]; exact gives_of (by decide +kernel)

def gIn : Group := { gR (fun r => { r with depth := 1, taskId := 0x20000 }) with
  frames := [{ regs := (own (sN 2 7)).r, batches := [] }] }
theorem witness_Exits : Ready (.exit none') stM gM ∧ Starts gM ∧ Credits stM ∧ gM.r.depth = 0 ∧
    Ready (.exit none') (at' gIn) gIn ∧ Starts gIn ∧ Credits (at' gIn) ∧ gIn.r.depth ≠ 0 ∧ gIn.cp = 0 ∧ gIn.tl = 0 ∧
    gIn.frames ≠ [] ∧
    (let g := { gIn with cp := 1 }; Ready (.exit none') (at' g) g ∧ Starts g ∧ Credits (at' g) ∧ g.cp ≠ 0) :=
  ⟨ready_of (by decide +kernel), starts_of (by decide +kernel), credits_of (by decide +kernel), by decide +kernel,
   ready_of (by decide +kernel), starts_of (by decide +kernel), credits_of (by decide +kernel), by decide +kernel,
   by decide +kernel, by decide +kernel, by decide +kernel, ready_of (by decide +kernel), starts_of (by decide +kernel),
   credits_of (by decide +kernel), by decide +kernel⟩

theorem logRoom_of {g : Group} {n : Nat} (h : g.logSize = 0) (hn : n ≤ 1024) : logRoom g n := by
  simp only [logRoom, h]; omega

def binit1 : Slot := { none' with a := .s 3, b := .s 4, c := .s 5 }
def btest1 : Slot := { none' with dst := .s 1, a := .s 3, b := .s 4 }
def bwait1 (round : BitVec 6) : Slot := { none' with a := .s 3, b := .s round }
def sObj5 : State := State.withScr sObj 0x50 4 2
theorem witness_BarrierObjects : sObj5.Canonical ∧ Ready (.binit binit1) sObj5 gM ∧
    sObj5.ownStruct (gangOf sObj5.cur) (eaScalar binit1 gM.r) 32 32 = .ok 0x40 ∧
    (sObj5.stall sObj5.here).locked false 0x40 32 true = false ∧ gM.st < 63 ∧ sObj5.objectOk sObj5.here 0x40 = true ∧
    (∀ i ∈ [Instr.bwait (bwait1 4), .bwait (bwait1 2), .btest btest1, .btest { btest1 with b := .s 3 }], Ready i sObj5 gM) ∧
    logRoom gM 8 ∧
    (let round := BitVec.ofNat 32 (sObj5.objWord sObj5.here 0x40 4)
     round = 2 ∧ (round - (scalarOf (bwait1 4) gM.r (bwait1 4).b).setWidth 32).toNat = 1 ∧
     0x7FFFFFFF < (round - (scalarOf (bwait1 3) gM.r (bwait1 3).b).setWidth 32).toNat) ∧
    (sObj5.objWord 0 0x40 0 ≤ 2 ∧ 1 < sObj5.objWord 0 0x40 0 ∧ sObj5.objWord 0 0x40 1 ≤ 0) :=
  ⟨canonical_of (by decide +kernel), ready_of (by decide +kernel), gives_of (by decide +kernel), by decide +kernel,
   by decide +kernel, by decide +kernel, ready_all (by decide +kernel), logRoom_of (by decide +kernel) (by decide),
   by decide +kernel, by decide +kernel⟩

/-! #### Engines -/

/-- A structure from its fields: the lowest bit and the value of each. -/
def fields (xs : List (Nat × Nat)) : Nat := xs.foldl (fun d p => d + p.2 * 2 ^ p.1) 0

theorem admits_of {s : State} {g : Group} {spans : List Span} {pages : List (Nat × Nat)} {tag : Option Nat} {n : Nat}
    (h : (s.stall s.here).locks.length + spans.length ≤ 16 ∧ s.tagBusy tag = false ∧ g.storesTo pages = false ∧
      (∀ op ∈ g.ops, op.performed = true) ∧ g.logSize = 0 ∧ n ≤ 1024) : Admits s g spans pages tag n :=
  ⟨h.1, h.2.1, h.2.2.1, logRoom_of h.2.2.2.2.1 h.2.2.2.2.2, h.2.2.2.1⟩

def eng1 : Slot := ⟨.zero, .s 3, .s 4, .zero, 0, 0⟩
/-- One byte from offset 0x100 to 0x200; one row of 16 bytes from 0x20000 to 0x200; a bale of 8 planes from 0x100 to 0x200;
a groom of tile (0, 0) between two slots. -/
def dCart : Nat := fields [(0, 0x100), (64, 0x200), (128, 3)]
def dGather : Nat := fields [(0, 0x20000), (64, 1), (96, 16), (128, 16), (144, 1), (160, 0x100), (192, 0x200)]
def dBale : Nat := fields [(0, 0x100), (128, 0x200), (272, 7)]
def dGroom : Nat := fields [(36, 1)]
def sDesc (d : Nat) : State := State.withScr stM 0x40 64 d
/-- A map of one tile, which stable 0 owns. -/
def tiled (s : State) : State :=
  { s.modStable 0 fun x => { x with tiles := kset 0 x.tiles 0 0x801 } with
    cfg := { s.cfg with tmapEn := true, slotsm := 1, rs := 1 } }
def sGroom : State := tiled (sDesc dGroom)

theorem witness_EngineRequests_cart : (sDesc dCart).Canonical ∧ Ready (.cart eng1) (sDesc dCart) gM ∧
    (sDesc dCart).descriptor (eaScalar eng1 gM.r) = .ok dCart ∧
    (sDesc dCart).checkSpans (cartFlaws dCart (eaScalar eng1 gM.r)) ((sDesc dCart).barFits (cartBar dCart) (cartBarOff dCart))
      (cartSpans dCart) = .ok [] ∧
    Admits (sDesc dCart) gM (cartSpans dCart) [] (some 1) (cartPayload dCart) ∧
    ((sDesc dCart).stall (sDesc dCart).here).cartq.length < 16 ∧ gM.cp < 63 ∧
    (scalarOf eng1 gM.r eng1.b).getLsbD 6 = false ∧ (scalarOf eng1 gM.r eng1.b).toNat % 64 = 1 :=
  ⟨canonical_of (by decide +kernel), ready_of (by decide +kernel), gives_of (by decide +kernel), gives_of (by decide +kernel),
   admits_of (by decide +kernel), by decide +kernel⟩

theorem witness_EngineRequests_cartg : (sDesc dGather).Canonical ∧ Ready (.cartg eng1) (sDesc dGather) gM ∧
    (sDesc dGather).descriptor (eaScalar eng1 gM.r) = .ok dGather ∧
    (sDesc dGather).checkSpans (gatherFlaws dGather (eaScalar eng1 gM.r))
      ((sDesc dGather).barFits (gatherBar dGather) (gatherBarOff dGather)) (gatherChecked dGather) = .ok [(2, 0x20000)] ∧
    gM.storesGranted = true ∧ (sDesc dGather).listBusy dGather = false ∧ (sDesc dGather).indexPoison dGather = [] ∧
    indexFlaw dGather 0 ((sDesc dGather).gatherList dGather) = [] ∧
    Admits (sDesc dGather) gM (gatherSpans dGather) [(2, 0x20000)] (some 1) (gatherCount dGather * gatherRowB dGather) :=
  ⟨canonical_of (by decide +kernel), ready_of (by decide +kernel), gives_of (by decide +kernel), gives_of (by decide +kernel),
   by decide +kernel, by decide +kernel, by decide +kernel, by decide +kernel, admits_of (by decide +kernel)⟩

theorem witness_EngineRequests_bale : let s := sDesc dBale
    s.Canonical ∧ Ready (.bale eng1) s gM ∧ s.descriptor (eaScalar eng1 gM.r) = .ok dBale ∧
    s.checkSpans [] (baleFlaws dBale (eaScalar eng1 gM.r)) (baleSpans dBale) = .ok [] ∧ gM.storesGranted = true ∧
    (s.stall s.here).blocked s.nextCmd ((baleSpans dBale).map fun x => s.lockOf x .bale 0 s.nextCmd) = false ∧
    baleTraps (baleCmd dBale) (s.baleBad dBale) (s.baleNow dBale) = .ok () ∧
    Admits s gM (baleSpans dBale) [] (some 1) ((baleCmd dBale).spans * (baleCmd dBale).blockBytes) :=
  ⟨canonical_of (by decide +kernel), ready_of (by decide +kernel), gives_of (by decide +kernel), gives_of (by decide +kernel),
   by decide +kernel, by decide +kernel, gives_of (by decide +kernel), ⟨by decide +kernel, by decide +kernel, by decide +kernel,
   by unfold logRoom; decide +kernel, by decide +kernel⟩⟩

theorem witness_EngineRequests_groom : sGroom.Canonical ∧ Ready (.groom eng1) sGroom gM ∧
    sGroom.ownStruct (gangOf sGroom.cur) (eaScalar eng1 gM.r) 64 64 = .ok 0x40 ∧
    (sGroom.stall sGroom.here).locked false 0x40 64 false = false ∧ sGroom.scrPoisoned sGroom.here 0x40 64 = false ∧
    dGroom = sGroom.scr sGroom.here 0x40 64 ∧
    sGroom.checkSpans (groomFlaws dGroom (eaScalar eng1 gM.r)) (flaw (sGroom.groomTile dGroom) .permission 0x40) [] = .ok [] ∧
    gmTemp dGroom = false ∧ eaScalar eng1 gM.r = 0x40 ∧
    Admits sGroom gM (groomSpans dGroom 0x40) [] (some 1) 8 ∧
    (let owner := sGroom.groomStable (tileOwner (sGroom.tileEntry sGroom.myStable (gmTx dGroom) (gmTy dGroom)))
       (gangOf sGroom.cur)
     (sGroom.stable owner).groomq.length + (sGroom.stable owner).jobs.length < 64) ∧ gM.cp < 63 :=
  ⟨canonical_of (by decide +kernel), ready_of (by decide +kernel), gives_of (by decide +kernel), by decide +kernel,
   by decide +kernel, by decide +kernel, gives_of (by decide +kernel), by decide +kernel, by decide +kernel,
   admits_of (by decide +kernel), by decide +kernel, by decide +kernel⟩

def mloop1 : Slot := ⟨.zero, .s 3, .s 3, .s 4, 0, 0⟩
def mdrain1 : Slot := ⟨.zero, .s 3, .s 6, .s 6, ty 4 0, 0⟩
def plz1 : Slot := ⟨.zero, .s 3, .s 4, .zero, 0, 0⟩
theorem witness_PlaneRequests : stM.Canonical ∧ (∃ u, stM.bindBank 0 = some (u, 0)) ∧
    mloop1.bank = 0 ∧ mdrain1.bank = 0 ∧ (stM.stall stM.here).planeq.length < 8 ∧ gM.tl < 63 ∧
    Ready (.mloop mloop1) stM gM ∧ (scalarOf mloop1 gM.r mloop1.c).extractLsb' 48 16 = 0 ∧
    (let c := scalarOf mloop1 gM.r mloop1.c
     let a := gM.r.getS mloop1.a.num
     let spans := [mloopSpan a (mloopSteps c) (mloopAinc c) 1, mloopSpan a (mloopSteps c) (mloopBinc c) 1]
     stM.checkSpans [] (flaw (a.toNat % 32 = 0) .misaligned a ++ flaw (a.toNat % 32 = 0) .misaligned a) spans = .ok [] ∧
     Admits stM gM spans [] none 0) ∧
    Ready (.mdrain mdrain1) stM gM ∧ (scalarOf mdrain1 gM.r mdrain1.c).extractLsb' 38 2 = 0 ∧
    (scalarOf mdrain1 gM.r mdrain1.c).extractLsb' 48 16 = 0 ∧
    (let ea := eaScalar mdrain1 gM.r
     let c := scalarOf mdrain1 gM.r mdrain1.c
     let spans := drainSpans mdrain1 ea (gM.r.getS mdrain1.b.num) c
     stM.checkSpans [] (flaw (ea.toNat % 16 = 0 && drainPitch c % 16 = 0) .misaligned ea ++
       flaw (!mdrain1.bias || (gM.r.getS mdrain1.b.num).toNat % 4 = 0) .misaligned (gM.r.getS mdrain1.b.num)) spans = .ok [] ∧
     (stM.stall stM.here).locks.length + spans.length ≤ 16 ∧ stM.tagBusy none = false ∧ gM.storesTo [] = false ∧
     128 * mdrain1.ty.bits ≤ 4096 ∧ gM.logSize = 0) ∧
    Ready (.mclr none') stM gM ∧ Admits stM gM [] [] none 0 ∧ Ready (.plz plz1) stM gM ∧
    (let ea := eaScalar plz1 gM.r
     let span : Span := { glb := false, dst := true, lo := ea.toNat, hi := (ea.toNat + 32 : Nat) }
     (scalarOf plz1 gM.r plz1.b).toNat % 2 ^ 14 = 1 ∧
     stM.checkSpans [] (flaw (ea.toNat % 32 = 0) .misaligned ea) [span] = .ok [] ∧
     (stM.stall stM.here).locks.length < 16 ∧ gM.storesGranted = true ∧ (∀ op ∈ gM.ops, op.performed = true) ∧
     (stM.stall stM.here).blocked stM.nextCmd [stM.lockOf span .plz 0 stM.nextCmd] = false) := by
  refine ⟨stM_canonical, ?_, by decide +kernel, by decide +kernel, by decide +kernel, by decide +kernel,
    ready_of (by decide +kernel), by decide +kernel, ⟨gives_of (by decide +kernel), admits_of (by decide +kernel)⟩,
    ready_of (by decide +kernel), by decide +kernel, by decide +kernel, ⟨gives_of (by decide +kernel), by decide +kernel⟩,
    ready_of (by decide +kernel), admits_of (by decide +kernel), ready_of (by decide +kernel), by decide +kernel,
    gives_of (by decide +kernel), by decide +kernel⟩
  have h : (stM.bindBank 0).map Prod.snd = some 0 := by decide +kernel
  obtain ⟨⟨u, b⟩, hu, hb⟩ := Option.map_eq_some_iff.mp h
  exact ⟨u, by rw [hu]; simp at hb; rw [hb]⟩

def mfence1 : Slot := { none' with dst := .s 1 }
def mwait1 (n : BitVec 6) : Slot := { none' with b := .s n }
def batch1 : Batch := { number := 0, cmds := [1], mark := 0 }
theorem witness_Batches :
    (Ready (.mfence mfence1) stM gM ∧ gM.batches = [] ∧ gM.openCmds = []) ∧
    (let g := { gM with openCmds := [5] }; Ready (.mfence mfence1) (at' g) g ∧ g.batches = [] ∧ g.openCmds ≠ []) ∧
    (let g := { gM with batches := List.replicate 8 batch1 }
     Ready (.mfence mfence1) (at' g) g ∧ 8 ≤ g.batches.length) ∧
    (let g := { gM with batches := List.replicate 7 batch1 }
     Ready (.mfence mfence1) (at' g) g ∧ g.batches.length < 8) ∧
    (∀ i ∈ [Instr.mwait (mwait1 2), .mwait (mwait1 4), .mwait (mwait1 6)], Ready i stM gM) ∧ Ready (.actld eng1) stM gM ∧ stM.tableInUse 1 = false ∧
    (scalarOf eng1 gM.r eng1.b).toNat % 4 = 1 ∧
    stM.ownStruct (gangOf stM.cur) (eaScalar eng1 gM.r) 520 8 = .ok 0x40 ∧
    (stM.stall stM.here).locked false 0x40 520 false = false ∧ stM.scrPoisoned stM.here 0x40 520 = false ∧
    badActWord ((List.range 65).map fun k => stM.scr stM.here (0x40 + 8 * k) 8) = none ∧
    stM.gang? (gangOf stM.cur) = some (stM.gang loneGang) :=
  ⟨⟨ready_of (by decide +kernel), by decide +kernel⟩, ⟨ready_of (by decide +kernel), by decide +kernel⟩,
   ⟨ready_of (by decide +kernel), by decide +kernel⟩, ⟨ready_of (by decide +kernel), by decide +kernel⟩,
   ready_all (by decide +kernel), ready_of (by decide +kernel), by decide +kernel, by decide +kernel,
   gives_of (by decide +kernel), by decide +kernel⟩

/-! #### The reservoir and ray units -/

def scacc1 : Slot := ⟨.v 2, .v 4, .v 6, .zero, ty 8 0, 0⟩
theorem witness_LaneFunctions : Ready (.scacc scacc1) st1 g1 ∧ Ready (.draw (vec 5 0)) st1 g1 ∧
    Ready (.draw (vec 8 0)) st1 g1 ∧ (vec 8 0).ty = .f32 ∧ (vec 5 0).ty ≠ .f32 :=
  ⟨ready_of (by decide +kernel), ready_of (by decide +kernel), ready_of (by decide +kernel), by decide, by decide⟩

def rsupd1 (c : Opnd) (mod : BitVec 18) : Slot := ⟨.v 8, .v 16, .s 3, c, mod, 0⟩
def rsmrg1 (c : Opnd) (mod : BitVec 18) : Slot := ⟨.v 8, .v 16, .v 4, c, mod, 0⟩
def rsnrm1 (c : Opnd) (mod : BitVec 18) : Slot := ⟨.v 8, .zero, .zero, c, mod, 0⟩
theorem witness_Reservoirs_folds :
    (∀ i ∈ [Instr.rsupd (rsupd1 .zero 0), .rsmrg (rsmrg1 .zero 0), .rsnrm (rsnrm1 .zero 0), .rsupd (rsupd1 (.v 7) 4),
      .rsmrg (rsmrg1 (.v 7) 4), .rsnrm (rsnrm1 (.v 16) 4), .rsupd (rsupd1 (.v 8) 4), .rsmrg (rsmrg1 (.v 15) 4),
      .rsnrm (rsnrm1 (.v 8) 4)], Ready i st1 g1) ∧ kwf 0 g1.r.v = true ∧
    (rsupd1 (.v 7) 4).bit34 = true ∧ (rsnrm1 (.v 16) 4).c.num = (rsnrm1 (.v 16) 4).dst.num + 8 ∧
    invalid32 (Record.w [0, 0, 0x7FC00000, 0] 2) = true ∧ nullRecord.w 0 = nullSample :=
  ⟨ready_all (by decide +kernel), by decide +kernel⟩

def rsld1 : Slot := ⟨.v 8, .v 2, .zero, .zero, 0, 0⟩
def rsst1 : Slot := ⟨.zero, .v 2, .v 16, .zero, 0, 0⟩
def sTile : State := tiled stM
theorem witness_Reservoirs_memory : Ready (.rsld rsld1) sTile gM ∧ Ready (.rsst rsst1) sTile gM ∧ gM.r.exm ≠ 0 ∧ gM.ld < 63 ∧
    gM.st < 63 ∧ gM.r.active = [0] ∧
    (∃ recs : Nat → Record, ∀ l ∈ gM.r.active, sTile.readRecord sTile.myStable (baseGlobal gM.r rsld1.a l) = .ok (recs l)) ∧
    (∃ p, sTile.recordAt sTile.myStable (baseGlobal gM.r rsst1.a 0) = some p ∧ (sTile.barn p.1).store.wf = true) ∧
    kwf Barn.fresh sTile.barns = true ∧
    (let g := gR fun r => { r with exm := 0 }
     (∀ i ∈ [Instr.rsld rsld1, .rsst rsst1], Ready i (at' g) g) ∧ g.r.exm = 0) := by
  refine ⟨ready_of (by decide +kernel), ready_of (by decide +kernel), by decide +kernel, by decide +kernel, by decide +kernel,
    by decide +kernel, lanes_ok [] (by decide +kernel), ?_, by decide +kernel, ready_all (by decide +kernel), by decide +kernel⟩
  have h : ((sTile.recordAt sTile.myStable (baseGlobal gM.r rsst1.a 0)).any fun p => (sTile.barn p.1).store.wf) = true := by
    decide +kernel
  obtain ⟨p, hp, hw⟩ := Option.any_eq_true _ _ |>.mp h
  exact ⟨p, hp, hw⟩

def rayq1 : Slot := ⟨.v 4, .v 8, .s 6, .zero, 0, 0⟩
/-- A volume at 0x20000 of 4-byte voxels, whose root table at 0x28000 is empty; its tile at 0x21000 in the CLB. -/
def dVol : Nat := fields [(0, 0x28000), (88, 2), (128, 9)]
def sVol : State := stM.writeCoherentN 0x20000 64 dVol
def sClb : State := sVol.modStall 0 fun st => { st with clb := [(0x20000, 0, 0, 0, 0x21000)] }
def volld1 : Slot := ⟨.v 4, .s 2, .v 5, .zero, 0x10000, 0⟩
def volst1 : Slot := ⟨.zero, .s 2, .v 5, .v 8, 0x10000, 0⟩
/-- A step that gives a state and a known value: the two apart. -/
def secondOf {ε α β : Type} (x : Except ε (α × β)) : Option β := match x with | .ok p => some p.2 | .error _ => none
def firstOf {ε α β : Type} (d : α) (x : Except ε (α × β)) : α := match x with | .ok p => p.1 | .error _ => d
theorem pair_of {ε α β : Type} (d : α) {x : Except ε (α × β)} {b : β} (h : secondOf x = some b) : x = .ok (firstOf d x, b) := by
  cases x with
  | error e => simp [secondOf] at h
  | ok p => simp only [secondOf, Option.some.injEq] at h; rw [← h, firstOf]
def movedBy (o : Slot) (store : Bool) (s : State) : State := firstOf s (gatherVoxels o store s)

theorem witness_RayRequests_sent :
    (∀ i ∈ [Instr.rayq rayq1, .rayv rayq1, .ltree rayq1], Ready i lofty gM) ∧
    lofty.checkRoot (gM.r.getS rayq1.b.num) 128 = .ok () ∧ lofty.checkRoot (gM.r.getS rayq1.b.num) 16 = .ok () ∧
    gM.r.exm ≠ 0 ∧ gM.ld < 63 :=
  ⟨ready_all (by decide +kernel), gives_of (by decide +kernel), gives_of (by decide +kernel), by decide +kernel⟩

theorem witness_RayRequests_volumes : gM.r.exm ≠ 0 ∧ gM.ld < 63 ∧ gM.st < 63 ∧ Ready (.volld volld1) sVol gM ∧
    gatherVoxels volld1 false sVol = .ok (movedBy volld1 false sVol, [(0, .background 9)]) ∧
    Ready (.volst volst1) sClb gM ∧
    gatherVoxels volst1 true sClb = .ok (movedBy volst1 true sClb,
      [(0, .stored [{ acc0 with va := 0x21000, loc := 0x21000, bytes := 4 }])]) ∧
    (movedBy volst1 true sClb).me = gM ∧ (movedBy volst1 true sClb).cur = sClb.cur :=
  ⟨by decide +kernel, by decide +kernel, by decide +kernel, ready_of (by decide +kernel), pair_of _ (by decide +kernel),
   ready_of (by decide +kernel), pair_of _ (by decide +kernel), by decide +kernel⟩

/-- The lone gang's group waits for a callable that runs for its lane 0. -/
def caller : Group := gOp { opOf .call with dst := [.v 6], accs := [] }
def called : CallReq := { who := .group, gang := loneGang, grp := loneGroup, s1 := 0, fn := 0x10000, lanes := 1, inputs := [] }
def sCall : State :=
  let s := (at' caller).setGroup (callableKey loneGang) gM
  { s.modStall 0 fun st => { st with calling := some called } with cur := callableKey loneGang }
theorem witness_RayRequests_tret : Ready (.tret none') sCall gM ∧ isCallable sCall.cur = true ∧ gM.ld = 0 ∧
    (sCall.stall sCall.here).calling = some called ∧ kwf Stall.fresh sCall.stalls = true ∧ called.who = .group ∧
    called.grp ≠ sCall.cur ∧ sCall.group? called.grp = some caller ∧ caller.ops.map Op.kind = [.call] ∧
    0 ∈ lanesOf called.lanes := ⟨ready_of (by decide +kernel), by decide +kernel⟩

/-! #### Work -/

def launch1 (q : Nat) : Slot := ⟨.s 1, .s 2, .imm 0, .zero, 0, BitVec.ofNat 32 q⟩
def queued1 (n : Nat) : State :=
  stM.setQueue 3 { stM.queue 3 with en := true, entries := List.replicate n (0, 5) }
theorem witness_WorkRequests_launch : logRoom gM 8 ∧ Ready (.launch (launch1 63)) stM gM ∧ Ready (.launch (launch1 64)) stM gM ∧
    (scalarOf (launch1 63) gM.r (launch1 63).b).toNat = 63 ∧ (scalarOf (launch1 64) gM.r (launch1 64).b).toNat = 64 ∧
    (stM.queue 63).en = false ∧ Ready (.launch (launch1 3)) (queued1 255) gM ∧ Ready (.launch (launch1 3)) (queued1 256) gM ∧
    ((queued1 255).queue 3).en = true ∧ ((queued1 256).queue 3).en = true ∧ ((queued1 255).queue 3).entries.length = 255 ∧
    ((queued1 256).queue 3).entries.length = 256 :=
  ⟨logRoom_of (by decide +kernel) (by decide), ready_of (by decide +kernel), ready_of (by decide +kernel), by decide +kernel,
   by decide +kernel, by decide +kernel, ready_of (by decide +kernel), ready_of (by decide +kernel), by decide +kernel⟩

def fetchw1 : Slot := { none' with a := .s 3 }
def spawn1 (b : Opnd) : Slot := { none' with a := .v 2, b := b }
def staged (n : Nat) : Group :=
  { gM with deliveries := List.replicate n { parcel 0 with parts := [.item 0x10000 0 0], checked := true } }
theorem witness_WorkRequests_parcels : Ready (.fetchw fetchw1) (receiving stM) gM ∧
    (receiving stM).mailboxOk (eaScalar fetchw1 gM.r) = true ∧ (eaScalar fetchw1 gM.r).toNat % 32 = 0 ∧
    (∀ n ∈ [511, 512], ∀ i ∈ [Instr.spawn (spawn1 (.imm 0)), .spawnIndirect (spawn1 (.s 3))],
      Ready i (at' (staged n)) (staged n) ∧ (staged n).stagedItems + (staged n).r.active.length = n + 1) := by
  refine ⟨ready_of (by decide +kernel), by decide +kernel, by decide +kernel, fun n hn i hi => ⟨?_, ?_⟩⟩
  all_goals
    simp only [List.mem_cons, List.not_mem_nil, or_false] at hn hi
    obtain rfl | rfl := hn
    all_goals obtain rfl | rfl := hi
  all_goals first | exact ready_of (by decide +kernel) | decide +kernel

/-- The group's line in place, its slot 0 a target (R250), and an item for it. -/
def atTgt (s : State) : State := s.modStall 0 fun st => { st with lines := [(0x10000, loneLine 0)] }
def item1 : Item := { pc := 0x10000, payload := 7, gang := loneGang, stage := 0, seq := 0 }
def sItem : State := (atTgt stM).modStall 0 fun st => { st with itemq := [item1] }
theorem witness_WorkRequests_lrefill :
    (let g := gOp loading; Ready (.lrefill none') (atTgt (at' g)) g ∧ (atTgt (at' g)).atTarget = true ∧ g.ld ≠ 0) ∧
    (Ready (.lrefill none') stM gM ∧ stM.atTarget = false) ∧
    Ready (.lrefill none') (atTgt stM) gM ∧ (atTgt stM).atTarget = true ∧ gM.ld = 0 ∧ logRoom gM 256 ∧
    (atTgt stM).itemsFor (atTgt stM).here (gangOf stM.cur) gM.stage gM.r.pc = [] ∧
    Ready (.lrefill none') sItem gM ∧ sItem.atTarget = true ∧
    sItem.itemsFor sItem.here (gangOf sItem.cur) gM.stage gM.r.pc = [item1] ∧ gM.r.exm.getLsbD 1 = false ∧
    (∀ k, k < 1 → gM.r.exm.getLsbD k = true) ∧ kwf Stall.fresh sItem.stalls = true ∧ kwf 0 gM.r.v = true ∧
    (sItem.stall sItem.here).itemq = [item1] ∧ (sItem.stall sItem.here).bins = [] ∧ (sItem.stall sItem.myStall).spill = [] :=
  ⟨⟨ready_of (by decide +kernel), by decide +kernel⟩, ⟨ready_of (by decide +kernel), by decide +kernel⟩,
   ready_of (by decide +kernel), by decide +kernel, by decide +kernel, logRoom_of (by decide +kernel) (by decide),
   by decide +kernel, ready_of (by decide +kernel), by decide +kernel⟩

def task1 : Slot := ⟨.zero, .s 3, .s 2, .zero, 0, 0⟩
def fwait1 : Slot := ⟨.s 6, .s 2, .zero, .zero, 0, 0⟩
def lock1 : Slot := ⟨.zero, .s 2, .zero, .zero, 0, 0⟩
def xReq : Nat := 8 * 2 ^ 192
def sReq : State := State.withScr stM 0x40 32 xReq
/-- A record at 0x20000 whose word 3 holds a STATE. -/
def sRec (w3 : Word) : State := State.withWord stM 0x20000 3 w3
theorem witness_Tasks_task : (∀ i ∈ [Instr.task task1, .taskRun { task1 with mod := 4 }], Ready i sReq gM) ∧
    sReq.requestAt (eaScalar task1 gM.r) = .ok xReq ∧
    (∃ a, sReq.globalAcc 0 (gM.r.getS task1.b.num) 128 .write = .ok a ∧ ∀ k, k < 128 → sReq.ownerOf (a.loc + k) ≠ some sReq.here) ∧
    gM.st < 63 ∧ (∀ op ∈ gM.ops, op.performed = true) :=
  ⟨ready_all (by decide +kernel), gives_of (by decide +kernel),
   ⟨{ acc0 with va := 0x20000, loc := 0x20000, bytes := 128 }, gives_of (by decide +kernel), by decide +kernel⟩,
   by decide +kernel, by decide +kernel⟩

theorem witness_Tasks_fwait : gM.claim = none ∧ logRoom gM 16 ∧ gM.pendingAt 0x20000 128 = false ∧
    (∀ w ∈ [(3 : Word), 0x704, 1], Ready (.fwait fwait1) (sRec w) gM ∧
      (sRec w).homeAcc gM.r.sup (gM.r.getS fwait1.a.num) 128 128 .read = .ok 0x20000 ∧ (sRec w).recordOk 0x20000 = true ∧
      ((sRec w).wordAt 0x20000 3).extractLsb' 0 3 = w.extractLsb' 0 3) ∧
    gM.r.getS fwait1.a.num ≠ 0 ∧ gM.r.taskId = 0 ∧ (sRec 1).structLoc (sRec 1).here 0x20000 128 = some 0x20000 ∧
    gM.r.getS fwait1.a.num = 0x20000 ∧
    (let s := (sRec 1).setGroup loneGroup gTask
     Ready (.fwait fwait1) s gTask ∧ gTask.claim = none ∧ gTask.r.getS fwait1.a.num = gTask.r.taskId ∧ gTask.r.await = 0 ∧
     s.homeAcc gTask.r.sup (gTask.r.getS fwait1.a.num) 128 128 .read = .ok 0x20000 ∧ s.recordOk 0x20000 = true ∧
     gTask.pendingAt 0x20000 128 = false) := by
  refine ⟨by decide +kernel, logRoom_of (by decide +kernel) (by decide), by decide +kernel, fun w hw => ?_, by decide +kernel,
    by decide +kernel, by decide +kernel, by decide +kernel, ready_of (by decide +kernel), by decide +kernel,
    by decide +kernel, by decide +kernel, gives_of (by decide +kernel), by decide +kernel, by decide +kernel⟩
  simp only [List.mem_cons, List.not_mem_nil, or_false] at hw
  obtain rfl | rfl | rfl := hw
  all_goals exact ⟨ready_of (by decide +kernel), gives_of (by decide +kernel), by decide +kernel, by decide +kernel⟩

theorem witness_Tasks_lock : Ready (.lock lock1) stM gM ∧ gM.claim = none ∧
    (∃ a, stM.atomicAcc 0 (eaScalar lock1 gM.r) 8 = .ok a ∧ gM.pendingAt a.loc 8 = false ∧ stM.wordAt a.loc 0 = 0) ∧
    logRoom gM 0 ∧ gM.r.await = 0 :=
  ⟨ready_of (by decide +kernel), by decide +kernel,
   ⟨{ acc0 with va := 0x20000, loc := 0x20000, bytes := 8 }, gives_of (by decide +kernel), by decide +kernel⟩,
   logRoom_of (by decide +kernel) (by decide), by decide +kernel⟩

def deq1 : Slot := ⟨.s 6, .s 2, .zero, .zero, 0, 0⟩
def ywait1 (b : BitVec 6) : Slot := { none' with b := .s b }
/-- The queue with its first ordinary and its first reserved entry filled or faulted. -/
def sFull (st tail rsv : Word) : State :=
  State.withWord (State.withWord (sQueue tail rsv) 0x20040 1 st) 0x20080 1 st
def takenBy (s : State) : State := firstOf s (takeStep 0x20000 s)

theorem witness_QueueTaking :
    eaScalar deq1 gM.r = 0x20000 ∧ gM.pendingAt 0x20000 (64 + 16 * 8) = false ∧ logRoom gM 16 ∧ gM.claim = none ∧
    gM.r.await = 0 ∧
    (∀ p ∈ [(2, 1, 0, 0), (3, 1, 0, 1), (2, 0, 1, 0), (3, 0, 1, 1)], let s := sFull p.1 p.2.1 p.2.2.1
      s.group? s.cur = some gM ∧ queueAt 0x20000 s = .ok (theQueue p.2.1 p.2.2.1) ∧ Ready (.deq deq1) s gM ∧
      Ready (.qwait deq1) s gM ∧ (s.wordAt 0x20040 1).extractLsb' 2 4 = 0 ∧ (s.wordAt 0x20080 1).extractLsb' 2 4 = 0 ∧
      entryAt 0x20000 0 s = .ok 0x20040 ∧ entryAt 0x20000 4 s = .ok 0x20080 ∧ readsProducer 0x20040 s = .ok () ∧
      readsProducer 0x20080 s = .ok () ∧ 2 ≤ (s.wordAt 0x20040 1 &&& 3).toNat ∧
      ∃ u, takeStep 0x20000 s = .ok (u, .took 0 p.2.2.2) ∧ u.me = gM ∧ u.cur = s.cur) ∧
    (let s := sQueue 0 0
     queueAt 0x20000 s = .ok (theQueue 0 0) ∧ takeStep 0x20000 s = .ok (s, .waits 0 0) ∧ Ready (.deq deq1) s gM ∧
     Ready (.qwait deq1) s gM ∧ s.ownReachable = true) ∧
    (∀ b ∈ [(4 : BitVec 6), 6], Ready (.ywait (ywait1 b)) sYard gM ∧ Ready (.ywait (ywait1 b)) stM gM) ∧
    (sYard.yard sYard.myYard).bound = true ∧ (sYard.yard sYard.myYard).launch = gM.r.launchId ∧
    (stM.yard stM.myYard).bound = false := by
  refine ⟨by decide +kernel, by decide +kernel, logRoom_of (by decide +kernel) (by decide), by decide +kernel,
    by decide +kernel, fun p hp => ?_, ⟨gives_of (by decide +kernel), gives_of (by decide +kernel), ready_of (by decide +kernel),
      ready_of (by decide +kernel), by decide +kernel⟩, fun b hb => ?_, by decide +kernel, by decide +kernel, by decide +kernel⟩
  · simp only [List.mem_cons, List.not_mem_nil, or_false] at hp
    obtain rfl | rfl | rfl | rfl := hp
    all_goals
      refine ⟨by decide +kernel, gives_of (by decide +kernel), ready_of (by decide +kernel), ready_of (by decide +kernel),
        by decide +kernel, by decide +kernel, gives_of (by decide +kernel), gives_of (by decide +kernel),
        gives_of (by decide +kernel), gives_of (by decide +kernel), by decide +kernel, ?_⟩
      exact ⟨takenBy _, pair_of _ (by decide +kernel), by decide +kernel, by decide +kernel⟩
  · simp only [List.mem_cons, List.not_mem_nil, or_false] at hb
    obtain rfl | rfl := hb
    all_goals exact ⟨ready_of (by decide +kernel), ready_of (by decide +kernel)⟩

/-! #### The panel: ports and the owner -/

/-- Port 0 has its link and owns the panel. -/
def owned (s : State) : State :=
  { s.setPort 0 { s.port 0 with link := true } with own := { s.own with owner := 0, owned := true } }
def free' (s : State) : State := { owned s with own := { s.own with owned := false } }
def offered : State := { owned stM with own := { (owned stM).own with owner := 1, hport := 0, hreq := true } }
/-- A group whose load is under way at a home. -/
def farLoad (home : Nat) : Op :=
  { loading with accs := [{ acc0 with loc := home * 2 ^ 52 + 8, bytes := 4, uncached := true }] }
def loadAt (home : Nat) : State := at' (gOp (farLoad home))
def loads (s : State) (home : Nat) : Prop :=
  s.group? loneGroup = some (gOp (farLoad home)) ∧ (gOp (farLoad home)).ops = [farLoad home] ∧
  (farLoad home).accs.map (fun a => homeOfLoc a.loc) = [home] ∧ (farLoad home).kind = .load ∧
  (farLoad home).performed = false
def attested (served : Nat) : State := { owned stM with att := { stM.att with queue := [(0, 5)], served := served } }

theorem witness_PortEvents :
    (∀ s ∈ [owned stM, free' stM, offered, owned (loadAt 1), attested 32767, attested 32768],
      (s.port 0).link = true ∧ kwf Port.fresh s.ports = true) ∧
    (free' stM).own.owned = false ∧ ((free' stM).port 0).busMaster = true ∧ (owned stM).own.owned = true ∧
    (owned stM).own.owner.toNat = 0 ∧ offered.own.owner.toNat ≠ 0 ∧ offered.own.hreq = true ∧ offered.own.hport.toNat = 0 ∧
    (owned stM).own.hreq = false ∧ (owned stM).gmem.wf = true ∧
    loads (owned (loadAt 1)) 1 ∧
    (let s := owned { stM with loader := { stM.loader with state := 0 } }
     s.loader.state = 0 ∧ s.own.owned = true) ∧
    (let s := owned { stM with loader := { stM.loader with state := 1 } }
     s.loader.state = 1 ∧ imageError s.loader.buffer ≠ 0) ∧
    (attested 32768).att.queue = [(0, 5)] ∧ 32768 ≤ (attested 32768).att.served ∧ (attested 32767).att.served < 32768 ∧
    (let s := (owned stM).setPort 1 { (owned stM).port 1 with downTicks := 100000000 }
     (s.port 1).link = false ∧ (s.barn (portBarn 1)).lost = false ∧
     (({ port := 1, busMaster := false, atomics := true } : PortUp).port = 1)) ∧
    (let s := (free' stM).setPort 3 { (free' stM).port 3 with link := true }
     (s.port 0).link = true ∧ kwf Port.fresh s.ports = true ∧ (s.port 3).link = true ∧ s.own.owned = false ∧
     (s.port 0).busMaster = true) ∧
    (let s := (free' stM).setPort 0 { (free' stM).port 0 with busMaster := false }
     (s.port 0).link = true ∧ kwf Port.fresh s.ports = true ∧ (s.port 0).busMaster = false) ∧
    (let s := { owned stM with own := { (owned stM).own with owner := 1 } }
     let s := s.setPort 1 { s.port 1 with downTicks := 100000000 }
     (s.port 0).link = true ∧ kwf Port.fresh s.ports = true ∧ (s.port 1).link = false ∧ s.own.owned = true ∧
     s.own.owner.toNat = 1 ∧ 100000000 ≤ (s.port 1).downTicks) := by
  unfold loads; decide +kernel

/-- A panel that has booted, with no gang. -/
def idlePanel : State := { State.reset with loader := { State.reset.loader with state := 2 } }
def panel0 : State := owned idlePanel
def queueOn : State := panel0.setQueue 63 { panel0.queue 63 with en := true, entries := List.replicate 255 (0, 5) }
def shooting : State := { panel0 with cfg := { panel0.cfg with shootBusy := true, shootAll := true } }
def gParked : Group := { gM with standing := .parked (.translation 0x30000 7 1) }
def halted (b : Bool) : State :=
  let s := owned stM
  s.setDbg s.cfg.dbgStall.toNat s.cfg.dbgSlot.toNat { DbgCtl.off with att := true, halted := true, atBrk := b }
def lofted : State := { panel0 with cfg := { panel0.cfg with ls := 1 } }

theorem witness_HostRequests :
    (∀ s ∈ [panel0, queueOn, shooting, owned (at' gParked), halted true, halted false, lofted], (s.port 0).link = true) ∧
    panel0.loader.state = 2 ∧ (queueOn.queue 63).en = true ∧ (queueOn.queue 63).entries.length = 255 ∧
    shooting.cfg.shootBusy = true ∧ shooting.cfg.shootAll = true ∧
    shooting.tlbQuiet true (shooting.cfg.shootVpn.toNat * 65536) (shooting.cfg.shootNpm.toNat + 1) = true ∧
    kwf Stable.fresh shooting.stables = true ∧ kwf Barn.fresh panel0.barns = true ∧ panel0.gangs = [] ∧
    (panel0.preempt[7]?).isSome = true ∧ panel0.cfg.sync = false ∧
    ({ panel0 with cfg := { panel0.cfg with sync := true } } : State).cfg.sync = true ∧
    panel0.parkedAt 7 = none ∧ (owned (at' gParked)).parkedAt 7 = some (loneGroup, 0x30000, 1) ∧
    (owned (at' gParked)).group? loneGroup = some gParked ∧ gParked.r.taskId = 0 ∧
    ((owned (at' gParked)).gang? (gangOf loneGroup)).isSome = true ∧ panel0.evWaiting = [] ∧
    4095 / 2 ^ 30 = lofted.cfg.loftwin.toNat ∧ 4095 < lofted.cfg.ls.toNat * 4096 ∧ lofted.loft.wf = true ∧
    0 + 8 ≤ panel0.dramLimit ∧ panel0.dramLimit < panel0.dramLimit + [(0 : Byte)].length ∧ 2 ^ 43 < 2 ^ 43 - 7 + 8 ∧
    2 ^ 43 - 8 + 8 ≤ 2 ^ 43 ∧ panel0.poisonAt 0 = false ∧ panel0.dbgctl.halted = false ∧
    (let s := panel0.setDbg 0 0 { DbgCtl.off with att := true }; s.dbgctl.halted = false ∧ s.dbgctl.att = true) ∧
    (halted false).dbgctl.att = true ∧ (halted false).dbgctl.halted = true ∧ (halted false).dbgctl.atBrk = false ∧
    (halted true).dbgctl.atBrk = true ∧ (halted true).dbgGroup? = some loneGroup ∧
    (halted true).group? loneGroup = some gM := by decide +kernel

/-! #### Losses and time -/

def withStall (s : State) (f : Stall → Stall) : State := s.modStall 0 f
def lostGang : State := { at' gM with
  gangs := kinsert stM.gangs loneGang { stM.gang loneGang with phase := .lost }
  stables := kinsert (kinsert stM.stables 0 { stM.stable 0 with lost := true }) 1 { stM.stable 1 with synced := true } }
def barnLost (s : State) : State := s.setBarn 0 { s.barn 0 with lost := true }
def withBarn (b : Nat) (f : Barn → Barn) : State := stM.setBarn b (f (stM.barn b))
def barnLost' (b : Nat) : State := withBarn b fun x => { x with lost := true }
def linkUp (k : PLink) : State := stM.setLink 0 { k with up := true, en := true, inb := true, iwbase := 0, iwlen := 1 }

theorem witness_FailureEvents_stalls :
    stM.stallPresent 0 = true ∧ kwf Stall.fresh stM.stalls = true ∧ kwf Stable.fresh stM.stables = true ∧
    kwf 0 stM.owners = true ∧ (stM.stable 287).lost = false ∧ ((stM.loseStable 287).strandedDies = []) ∧
    lostGang.firstToHost 0 = true ∧ lostGang.hostFor 0 = some 360 ∧ kwf Stable.fresh lostGang.stables = true := by decide +kernel

/-- The lone gang's stall has a line of its L1 with word 0 valid and its barn one line in a slice. -/
def cached : State := (withBarn 7 fun b => { b with l2 := [(3, [{ loft := false, tag := 9 }])] }).modStall 0 fun st =>
  { st with l1 := [line1 0] }
theorem witness_FailureEvents_errors :
    cached.stallPresent 0 = true ∧ kwf Stall.fresh cached.stalls = true ∧
    ((cached.stall 0).line? false 0).any (fun l => l.valid.getLsbD 0) = true ∧
    (cached.barn 7).lost = false ∧ kwf Barn.fresh cached.barns = true ∧ kwf [] (cached.barn 7).l2 = true ∧
    ({ loft := false, tag := 9 } : HomeLine) ∈ kget [] (cached.barn 7).l2 3 ∧
    (let s := { stM with cfg := { stM.cfg with lp := 1, rs := 1 } }
     s.ringWhole 7 = true ∧ 0 < s.cfg.lp.toNat * 2 ^ 25 ∧ 0 < s.storeBytes) ∧
    (stM.gang? loneGang).isSome = true ∧ stM.ringWhole (partnerBarn (stableOf (stM.gang loneGang).stall)) = true ∧
    (barnLost' (partnerBarn 0)).ringWhole (partnerBarn (stableOf (stM.gang loneGang).stall)) = false ∧
    ((barnLost' (partnerBarn 0)).gang? loneGang).isSome = true := by decide +kernel

theorem witness_FailureEvents_links :
    (stM.barn 287).lost = false ∧
    (let s := barnLost { stM with cfg := { stM.cfg with lp := 64 } }
     (s.barn 0).lost = true ∧ (s.barn 0).moved = false ∧ (s.barn 0).dead = false ∧ 64 ≤ s.cfg.lp.toNat ∧
     s.lostInRing 0 = []) ∧
    (stepDir (barnPos 0) 0).isSome = true ∧ stM.deadLinks.contains (0, 0) = false ∧ 0x20000 < stM.dramLimit ∧
    (stM.barn (backingBarn 0x20000)).moved = false ∧ stM.ringWhole (backingBarn 0x20000) = true ∧
    (let s := barnLost' (backingBarn 0x20000)
     s.ringWhole (backingBarn 0x20000) = false ∧ kwf false s.poison = true ∧ 0x20000 < s.dramLimit) ∧
    kwf PLink.fresh (linkUp PLink.fresh).links = true ∧ ((linkUp PLink.fresh).link 0).up = true ∧
    ({ link := 47, inb := true, base := 0, len := 1 } : Peer).link < 48 ∧
    ((linkUp PLink.fresh).barn (linkBarn 0)).lost = false ∧ ((linkUp PLink.fresh).link 0).en = true ∧
    loads (loadAt 0x10) 0x10 ∧
    (let s := linkUp PLink.fresh
     s.inboundOk (s.link 0) 0xFFF8 8 = true ∧ s.inboundOk (s.link 0) 0xFFF9 8 = false ∧ s.anyPoison 0xFFF8 8 = false ∧
     (s.markPoison 0xFFFF).anyPoison 0xFFF8 8 = true ∧
     (s.markPoison 0xFFFF).inboundOk ((s.markPoison 0xFFFF).link 0) 0xFFF8 8 = true) := by
  unfold loads; decide +kernel

/-- Stable 5 has been synchronised and holds no gang. -/
def synced5 : State := stM.modStable 5 fun x => { x with synced := true }
theorem witness_TimeEvents :
    (stM.stable 287).synced = false ∧ (stM.stable 287).lost = false ∧ (0 : Word).toNat ≤ stM.ptime.toNat ∧
    (stM.stable 0).synced = true ∧ (stM.stable 0).lost = false ∧ (stM.stable 0).lowering = false ∧
    kwf Stable.fresh (stM.modStable 0 fun y => { y with lowering := true }).stables = true ∧
    ((stM.modStable 0 fun y => { y with lowering := true }).stable 0).lowering = true ∧
    (∀ p ∈ stM.gangs, stableOf (stM.runsOn p.1) ≠ 5) ∧ (synced5.stable 5).synced = true ∧ (synced5.stable 5).lost = false ∧
    (∀ p ∈ synced5.gangs, stableOf (synced5.runsOn p.1) ≠ 5) ∧ kwf Stable.fresh synced5.stables = true ∧
    (let behind := fun (x : Word) => stM.modStable 0 fun y => { y with ahead := x, sinceLowered := 1024 }
     ((behind (-1)).stable 0).ahead.toInt < 0 ∧ ((behind (-1)).stable 0).raised = false ∧
     0 < ((behind 1).stable 0).ahead.toInt ∧ 1024 ≤ ((behind 1).stable 0).sinceLowered) ∧
    (stM.stall 103679).lost = false ∧ kwf Stall.fresh stM.stalls = true ∧ ((stM.stall 103679).pm[0]?).isSome = true ∧
    (∀ event ∈ [1, 3, 4, 13, 31], ∀ written ∈ [true, false],
      let x : Pm := { count := 0xFFFFFFFFFFFF, event := event, en := true, ovf := false, written := written }
      let s := withStall stM fun st => { st with pm := [x], tally := [(1, 2)] }
      (s.stall 0).lost = false ∧ kwf Stall.fresh s.stalls = true ∧ (s.stall 0).pm[0]? = some x) := by
  decide +kernel

/-! #### Launch queues and gangs -/

/-- A page table with one large page: addresses below 32 MiB at themselves, for reading and writing. -/
def mapped (s : State) : State :=
  (({ s with cfg := { s.cfg with ptEn := true, ptRoot := 1 } } : State).setWordAt 0x80000 0 0x100001).setWordAt 0x100000 0 7
/-- A launch block of one gang of one group. -/
def block1 : Nat := fields [(64, 1), (80, 1), (96, 1), (112, 1), (512, 0x10000), (576, 64), (584, 1)]
def sBlock (x : Nat) : State :=
  let s := (mapped stM).writeCoherentN 0x20000 256 x
  s.setQueue 5 { s.queue 5 with en := true, entries := [(0x20000, 2)] }
/-- The launch has been taken, and its one gang can be placed. -/
def sTaken : State :=
  { sBlock block1 with launches := kinsert stM.launches 2 { loneLaunch with queue := 5, next := 0, stuckSince := some 0 } }

theorem first_of {α β : Type} {x : α × Option β} {b : β} (h : x.2 = some b) : x = (x.1, some b) := by rw [← h]

def asking : State := { mapped stM with
  fetchReqs := [{ gang := loneGang, off := 0x40 }]
  launches := kinsert stM.launches 1 { loneLaunch with gx := 2, persist := true, donea := 0x20000 } }
def asked : State := { asking with launches := kinsert stM.launches 1 loneLaunch }
def ended (n : Nat) : State :=
  { at' { gM with standing := .exited } with launches := kinsert stM.launches 1 { loneLaunch with gx := n, donea := 0x20000 } }
def withGang (g : Group) (f : Gang → Gang) : State := (at' g).modGang loneGang f
def gWoken : Group := { gM with standing := .woken }
def imagedOut : State := withGang gWoken fun x => { x with phase := .imaged, allocImage := some [(3, 7)] }
def restoring (secs : List Section) : State := withGang { gM with sections := secs } fun x => { x with phase := .restoring }

theorem witness_LaunchEvents_blocks :
    (∀ x ∈ [block1, 0], ((sBlock x).queue 5).entries = [(0x20000, 2)] ∧ (sBlock x).launch? 2 = none) ∧
    ((sBlock block1).readLaunch 5 0x20000).isSome = true ∧ (sBlock 0).readLaunch 5 0x20000 = none ∧
    (sBlock 0).evCount < 255 ∧
    (∃ s', sTaken.raiseGuards.decide [0, 1, 2, 3] = (s', some (5, 0)) ∧
      s'.headLaunch 5 = some (2, { loneLaunch with queue := 5, next := 0, stuckSince := some 0 }) ∧
      s'.freeBase 0 loneLaunch.scrSize = some 0) ∧ loneLaunch.groupCount ≤ 16 ∧
    ((0, 0, loneLaunch.roles.getD 0 { entry := 0, vbudget := 0, groups := 0, carryV := 0, carryS := 0, cranges := [], rranges := [] })
      ∈ loneLaunch.allGroups) ∧
    (let s := { sTaken with ptime := 0x400 * 1024 + 1 }
     (s.headLaunch 5).isSome = true ∧ s.cfg.starve ≠ 0 ∧ s.eligible 5 = true ∧ s.unguarded 5 = true ∧ 5 ∉ s.starving ∧
     s.cfg.starve.toNat * 1024 < (s.ptime - 0).toNat) :=
  ⟨by decide +kernel, by decide +kernel, by decide +kernel, by decide +kernel,
   ⟨_, first_of (by decide +kernel), by decide +kernel, by decide +kernel⟩, by decide +kernel⟩

theorem witness_LaunchEvents_gangs :
    (∀ s ∈ [asking, asked], s.fetchReqs = [{ gang := loneGang, off := 0x40 }] ∧
      s.partDead (loneGang, .fetchw 0x40) = false ∧
      (s.gang? loneGang).isSome = true ∧ (s.launch? (lidOf loneGang)).isSome = true ∧ kwf Stall.fresh s.stalls = true) ∧
    asking.Canonical ∧ asked.Canonical ∧ (asking.launch 1).persist = true ∧ (asking.launch 1).next < (asking.launch 1).gangs ∧
    (asked.launch 1).persist = false ∧
    (withGang gM fun x => { x with phase := .ending }).partDead (loneGang, .fetchw 0x40) = true ∧
    (∀ n ∈ [1, 2], (ended n).gangDone loneGang = true) ∧
    (let s := (ended 1).modGang loneGang fun x => { x with phase := .ending }
     s.gangDone loneGang = true ∧ (s.gang loneGang).phase = .ending) ∧
    ((ended 2).launch (lidOf loneGang)).next < ((ended 2).launch (lidOf loneGang)).gangs ∧
    (kkeys (ended 1).gangs).Pairwise (· < ·) ∧
    (let s := mapped ((ended 1).setQueue 0 { (ended 1).queue 0 with entries := [(0, 1)] })
     s.gangDone loneGang = true ∧ (s.queue (s.launch (lidOf loneGang)).queue).entries ≠ [] ∧ kwf LaunchQueue.fresh s.lq = true ∧
     (s.launch (lidOf loneGang)).donea ≠ 0 ∧ s.panelPhys 0x20000 8 .write = .ok 0x20000 ∧ s.homePoison 0x20000 8 = false) ∧
    imagedOut.canReplace loneGang = true ∧ (imagedOut.gang loneGang).allocImage = some [(3, 7)] ∧
    Memory.wf [(3, 7)] = true ∧ imagedOut.Canonical ∧
    (∀ secs ∈ [[], [Section.mk gM.r 5 0 true 0 [] []]], let s := restoring secs
      (∃ x, s.gang? loneGang = some x ∧ x.phase = .restoring) ∧ s.firstToRestore (s.runsOn loneGang) loneGang = true ∧
      s.recordsDead loneGang = false ∧ s.canRestore (s.runsOn loneGang) loneGang = true ∧ s.redos loneGang = [] ∧
      loneGroup ∈ s.restartGroups loneGang ∧ (s.group? loneGroup).isSome = true) := by
  refine ⟨by decide +kernel, canonical_of (by decide +kernel), canonical_of (by decide +kernel), by decide +kernel,
    by decide +kernel, by decide +kernel, by decide +kernel, by decide +kernel, by decide +kernel, by decide +kernel,
    by decide +kernel, ⟨by decide +kernel, by decide +kernel, by decide +kernel, by decide +kernel, gives_of (by decide +kernel), by decide +kernel⟩,
    by decide +kernel, by decide +kernel, by decide +kernel, canonical_of (by decide +kernel), fun secs hs => ?_⟩
  simp only [List.mem_cons, List.not_mem_nil, or_false] at hs
  obtain rfl | rfl := hs
  all_goals exact ⟨⟨_, Option.some_get (by decide +kernel) |>.symm, by decide +kernel⟩, by decide +kernel⟩

theorem some_of {α : Type} {x : Option α} (h : x.isSome = true) : ∃ y, x = some y := Option.isSome_iff_exists.mp h

/-! #### Slots, items and credit -/

def bin1 (n : Nat) (ready : Bool) : Bin :=
  { gang := loneGang, stage := 0, pc := 0x10000, items := List.replicate n item1, ready := ready }
def binned (n : Nat) (ready : Bool) : State := withStall stM fun st => { st with bins := kset Bin.empty st.bins 3 (bin1 n ready) }
def runReq : RunReq := { task := 0x20000, stage := 0, need := 8, order := 0 }
def running (x : Word) : State := (sRec x).modGang loneGang fun g => { g with runReqs := [runReq] }
theorem witness_SlotEvents :
    (let s := at' { gM with streak := 64 }; s.group? loneGroup = some { gM with streak := 64 } ∧ kwf Stall.fresh s.stalls = true) ∧
    (sItem.stall 0).itemq = [item1] ∧ (sItem.stall 0).binFor item1 = some 0 ∧ sItem.noGroup loneGang = false ∧
    (let s := sItem.setGroup loneGroup { gM with standing := .exited }
     (s.stall 0).itemq = [item1] ∧ (s.stall 0).binFor item1 = some 0 ∧ s.noGroup loneGang = true ∧ s.runsOn loneGang = 0 ∧
     kwf Stall.fresh s.stalls = true ∧ kwf Bin.empty (s.stall 0).bins = true) ∧
    (let s := withStall stM fun st => { st with itemq := List.replicate 255 item1, spill := [item1] }
     oldestItem (s.spilled 0) = some item1 ∧ s.recordsDead item1.gang = false ∧ (s.stall 0).lost = false ∧
     (s.stall 0).itemq.length < 256) ∧
    (let b := kget Bin.empty ((binned 2 false).stall 0).bins 3; b.items ≠ [] ∧ b.ready = false) ∧
    (∀ n ∈ [2, 32], ((binned n true).stall 0).bins.find? (fun p => (binned n true).binStarts 0 p.2) = some (3, bin1 n true) ∧
      (binned n true).freeNumber loneGang = some 1 ∧ ((binned n true).role? loneGang 0).isSome = true ∧ (bin1 n true).items.length ≤ 32 ∧
      kwf Stall.fresh (binned n true).stalls = true ∧ kwf Bin.empty ((binned n true).stall 0).bins = true) ∧
    (let s := running 0
     (s.gang? loneGang).isSome = true ∧
     (s.liveRequests loneGang).find? (fun q => s.requestStarts loneGang q) = some runReq ∧
     s.freeNumber loneGang = some 1 ∧ (s.role? loneGang 0).isSome = true ∧
     s.structLoc (s.runsOn loneGang) 0x20000 128 = some 0x20000) := by decide +kernel

def atSection (next : AfterSection) (ds : List Delivery) : Group :=
  { gM with stage42 := .sectionSent next, sections := [Section.mk gM.r 5 0 false 0 [] []], deliveries := ds }
def sent (p : Parcel) : Delivery := { parts := [p], checked := true, bound := [loneGang], failed := none, store := none }
def parcels : List Parcel := [.fetchw 0x40, .bytes 0 0x40 [1, 2], .item 0x10000 7 0]
def gAdopt : Group := { atSection (.adopt 0x20000) [] with claim := some (0x20000, 0, 0, 8) }
def committing (p : Parcel) : State :=
  withStall (receiving stM) fun st => { st with commits := [{ parts := [(loneGang, p)] }] }

theorem witness_GangEvents_credit :
    (∀ p ∈ parcels, ∀ next ∈ [AfterSection.issue, .gbar], let g := atSection next [sent p]
      kwf Stall.fresh (at' g).stalls = true ∧ (at' g).group? loneGroup = some g ∧ g.stage42 = .sectionSent next ∧ g.tasks = [] ∧
      g.deliveries = [sent p] ∧ (sent p).parts = [p]) ∧ AfterSection.issue ≠ .adopt 0x20000 ∧ AfterSection.gbar ≠ .adopt 0x20000 ∧
    ((withStall stM fun st => { st with itemq := List.replicate 256 item1 }).stall (stM.runsOn loneGang)).itemq.length = 256 ∧
    (let s := at' gAdopt
     s.group? loneGroup = some gAdopt ∧ gAdopt.stage42 = .sectionSent (.adopt 0x20000) ∧ gAdopt.deliveries = [] ∧ gAdopt.tasks = [] ∧
     gAdopt.claim = some (0x20000, 0, 0, 8) ∧ s.structLoc (s.runsOn (gangOf loneGroup)) 0x20000 128 = some 0x20000) ∧
    (∀ p ∈ [Parcel.bytes 0 0x40 [1, 2], .count 0 0x40 5, .mailbox 0x40 [1, 2]], let s := committing p
      (s.stall 0).commits = [{ parts := [(loneGang, p)] }] ∧ s.partWaits (loneGang, p) = false ∧
      (∃ x, s.gang? loneGang = some x ∧ x.phase ≠ .ending ∧ x.allocImage = none ∧ x.scrbase ≤ 0x40) ∧ s.Canonical) ∧
    (let p := Parcel.count 0 0x40 5
     let s := { committing p with gangs := [] }
     (s.stall 0).commits = [{ parts := [(loneGang, p)] }] ∧ [(loneGang, p)].all s.partDead = true) := by
  refine ⟨by decide +kernel, by decide, by decide, by decide +kernel, by decide +kernel, fun p hp => ?_, by decide +kernel⟩
  simp only [List.mem_cons, List.not_mem_nil, or_false] at hp
  obtain rfl | rfl | rfl := hp
  all_goals
    exact ⟨by decide +kernel, by decide +kernel, ⟨_, Option.some_get (by decide +kernel) |>.symm, by decide +kernel⟩,
      canonical_of (by decide +kernel)⟩

def waiting : Wake := .barrier 0x40 1
def sPassed : State := sObj5
theorem witness_GangEvents_parking :
    (let g := { gM with blocked := some waiting }
     (at' g).group? loneGroup = some g ∧ isCallable loneGroup = false ∧ g.standing = .slot ∧ g.blocked = some waiting ∧
     g.probing = false ∧ (at' g).isHalted loneGroup = false ∧
     (at' g).recordsFit ((at' g).afterPark loneGroup waiting) (gangOf loneGroup) = true) ∧
    (let g := { gM with standing := .parked waiting }
     let s := sPassed.setGroup loneGroup g
     s.group? loneGroup = some g ∧ (s.gang (gangOf loneGroup)).holds = true ∧ s.preempted (lidOf (gangOf loneGroup)) = false ∧
     ({ s with cur := loneGroup } : State).wakeHolds waiting = true ∧ s.recordsDead (gangOf loneGroup) = false ∧
     g.r.taskId = 0) ∧
    (let s := withStall (at' gWoken) fun st => { st with wakes := [loneGroup] }
     s.group? loneGroup = some gWoken ∧ gWoken.standing = .woken ∧ s.canResume loneGroup = true ∧
     s.recordsDead (gangOf loneGroup) = false ∧ gWoken.r.taskId = 0) ∧
    (let s := at' { gM with stage42 := .gbar, gbars := 1 }
     (s.gang? loneGang).isSome = true ∧ s.gbarGroups loneGang ≠ [] ∧ s.recordsFit (s.afterGbar loneGang) loneGang = true ∧
     ∀ k ∈ s.gbarGroups loneGang, (s.group k).stage42 = .gbar ∧ (s.group k).gbars = (s.gang loneGang).gbarDone + 1) ∧
    (let s := stM.setYard 3 { yard1 with arrived := kset 0 [] 0 2 }
     s.yardArrived (s.yard 3) = true ∧ kwf 0 (s.yard 3).masks = true ∧ kwf 0 (s.yard 3).rounds = true ∧
     kwf Yard.free s.yards = true) := by decide +kernel

def storing (p q : Memory) : Op := { opOf .load with kind := .store p q, counted := true, countsLd := false, dst := [], accs := [] }
/-- An aligned store of 8 bytes, whose two words are registered together. -/
def wide : Op := { storing [(0x20008, 5), (0x2000C, 6)] [] with accs := [{ acc0 with va := 0x20008, loc := 0x20008, bytes := 8 }] }
def gFetch : Group := { gM with transferFrom := some 0 }
def sFetch : State := at' gFetch
theorem witness_MemoryEvents :
    (∀ op ∈ [storing [(0x20008, 5)] [], storing [] [(0x20008, 5)], wide], let s := at' (gOp op)
      s.nextGrant 0 (0x20008 / 4) = some (loneGroup, 0, op) ∧ s.group? loneGroup = some (gOp op) ∧
      kwf 0 s.owners = true ∧ s.gmem.wf = true ∧ kwf Stall.fresh s.stalls = true) ∧
    homeOfLoc 0x20008 ≠ 0x1FF ∧
    (let s := withStall stM fun st => { st with l1 := [{ line1 0 with valid := 3 }] }
     ((s.stall 0).line? false (1 / 16)).isSome = true ∧
     ((s.stall 0).line? false (1 / 16)).all (fun l => l.valid.getLsbD (1 % 16)) = true) ∧
    (∀ op ∈ [storing [] [], { storing [] [] with kind := .taken }], (at' (gOp op)).group? loneGroup = some (gOp op) ∧
      (gOp op).ops[0]? = some op ∧ op.countsLd = false ∧ op.result = []) ∧
    (let g := { gM with zlr := [1] }
     (at' g).group? loneGroup = some g ∧ g.zlr.contains 1 = true ∧ g.hostPending 1 = false) ∧
    (let s := sFetch.writeCoherentN 0 64 (loneLine 0)
     s.group? loneGroup = some gFetch ∧ s.mayIssue loneGroup = true ∧ s.lineHeld loneGroup = false ∧
     (match s.translate (s.runsOn (gangOf loneGroup)) gFetch.r.sup (lineOf gFetch.r.pc) 64 .fetch with
      | .ok p => p.loc | .error _ => 1) = 0 ∧ (∀ i, i < 64 → s.poisonAt (0 + i) = false ∧ s.unreachable (0 + i) = false) ∧
     s.coherentN 0 64 = loneLine 0 ∧ lineParityOk (loneLine 0) = true ∧ lineWordOk (loneLine 0) = true) := by decide +kernel

/-! #### Engine events -/

def cmd (kind : CmdKind) : Cmd :=
  { id := 5, gang := loneGang, grp := loneGroup, kind := kind, tag := some 1, batch := 0, ric := 1, pc := 0x10000,
    running := true, pages := [], large := [], out := [(0x200, [1, 2])], after := 0 }
def gBusy : Group := { gM with cp := 1, tl := 1 }
def carting (kind : CmdKind) (run : Bool) : State :=
  withStall (at' gBusy) fun st => { st with cartq := [{ cmd kind with running := run }] }
def plane (kind : CmdKind) : State := withStall (at' gBusy) fun st => { st with planeq := [cmd kind] }
def looped (steps : Word) : State := plane (.mloop mloop1 0x400 0x400 steps 0)
def drains : List Slot := [{ mdrain1 with mod := ty 4 0 }, { mdrain1 with mod := ty 4 32 }, { mdrain1 with mod := ty 4 16 }]

theorem witness_EngineEvents_carts :
    (carting (.cart dCart) false).Canonical ∧ (carting (.cart dCart) false).mayStart 0 0 = true ∧
    (∀ k ∈ [CmdKind.cart dCart, .cartg dGather [0], .bale], (carting k true).Canonical ∧
      ((carting k true).stall 0).cartq[0]? = some (cmd k) ∧ (cmd k).running = true) ∧ (cmd .bale).out = [(0x200, [1, 2])] ∧
    cartBales dCart = false ∧ cartSsp dCart = true ∧ cartDsp dCart = true ∧ cartBar dCart = false ∧ (cartPlaces dCart).Nodup ∧
    (∀ v ∈ cartVisits dCart, 0 ≤ cartSrc dCart + v.1 ∧ 0 ≤ cartDst dCart + v.2) ∧
    (∀ v ∈ cartVisits dCart, ∀ w ∈ cartVisits dCart, ∀ j, j < cartEsz dCart → ∀ k, k < cartEsz dCart →
      cartSrc dCart + v.1 + (j : Int) ≠ cartDst dCart + w.2 + (k : Int)) ∧
    cartVisits dCart ≠ [] ∧ 0 < cartEsz dCart := by
  refine ⟨canonical_of (by decide +kernel), by decide +kernel, fun k hk => ?_, by decide +kernel⟩
  simp only [List.mem_cons, List.not_mem_nil, or_false] at hk
  obtain rfl | rfl | rfl := hk
  all_goals exact ⟨canonical_of (by decide +kernel), by decide +kernel, rfl⟩

theorem witness_EngineEvents_planes :
    (∀ k ∈ [CmdKind.mloop mloop1 0x400 0x400 0 0, .mloop mloop1 0x400 0x400 1 0, .mclr none' 0] ++
        drains.map fun o => CmdKind.mdrain o 0x400 0 0x1000 0,
      (plane k).Canonical ∧ (plane k).planeHead 0 = some (cmd k) ∧
      (plane k).group? (cmd k).grp = some gBusy ∧ 0 < ((plane k).stall 0).banks.length) ∧
    (drains.map Slot.clr).contains true = true ∧ (drains.map Slot.free).contains true = true ∧
    (drains.any fun o => !o.clr && !o.free && !o.exp) = true ∧
    4 * mdrain1.ty.bits ≤ drainPitch 0x1000 := by
  refine ⟨fun k hk => ?_, by decide +kernel, by decide +kernel, by decide +kernel, by decide +kernel⟩
  simp only [drains, List.cons_append, List.nil_append, List.map_cons, List.map_nil, List.mem_cons, List.not_mem_nil,
    or_false] at hk
  obtain rfl | rfl | rfl | rfl | rfl | rfl := hk
  all_goals exact ⟨canonical_of (by decide +kernel), by decide +kernel, by decide +kernel, by decide +kernel⟩

/-- A scene of one node that has itself for its only child, in a box at the origin; a light tree of such a node. -/
def sceneLoft (m : Memory) (g : Group) : State := { lofty.setGroup loneGroup g with loft := m }
def loopNode : Memory := [(96, 1)]
def treeLoft (leaf : Bool) : Memory := [(2, 0x80), (3, 0x3F)] ++ if leaf then [(11, 0x80)] else []
def rayOp (vis : Bool) : Op := opOf (.ray vis 0 [(0, List.replicate 8 0)])
def treeOp : Op := opOf (.ltree 0 [(0, List.replicate 4 0)])

/-- A node that leads back to itself has no end of visits (R365). -/
theorem visits_loop {s : State} {unit gang : Nat} {r : Ray} {w : Word} {ws : List Word} (hk : childKind w = 1)
    (hs : s.loftSpan gang (childOff w) 128 = true) (hb : s.loftPoison unit (childOff w) 128 = false)
    (hc : s.nodeChildren r (childOff w) = some [w]) (n : Nat) :
    s.visitsOver unit gang r n (w :: ws) = true := by
  induction n with
  | zero => simp [State.visitsOver]
  | succ n ih => simp [State.visitsOver, hk, hs, hb, hc, ih]

theorem witness_EngineEvents_rays :
    (∀ vis ∈ [true, false], ∀ m ∈ [([] : Memory), loopNode], let s := sceneLoft m (gOp (rayOp vis))
      s.Canonical ∧ s.group? loneGroup = some (gOp (rayOp vis)) ∧ (gOp (rayOp vis)).ops[0]? = some (rayOp vis) ∧
      (rayOp vis).countsLd = true) ∧
    (sceneLoft [] gM).rayOver loneGang 0 (List.replicate 8 0) = false ∧
    (sceneLoft loopNode gM).rayOver loneGang 0 (List.replicate 8 0) = true ∧
    (∀ leaf ∈ [true, false], let s := sceneLoft (treeLoft leaf) (gOp treeOp)
      s.Canonical ∧ s.group? loneGroup = some (gOp treeOp) ∧ treeOp.countsLd = true ∧
      (s.treeEnd loneGang 0 (List.replicate 4 0)).steps = !leaf) := by
  refine ⟨fun vis hv m hm => ?_, by decide +kernel, ?_, fun leaf hl => ?_⟩
  · simp only [List.mem_cons, List.not_mem_nil, or_false] at hv hm
    obtain rfl | rfl := hv <;> obtain rfl | rfl := hm
    all_goals exact ⟨canonical_of (by decide +kernel), by decide +kernel, by decide +kernel, by decide +kernel⟩
  · have hv : (Ray.of (List.replicate 8 0)).void = false := by decide +kernel
    have h := visits_loop (s := sceneLoft loopNode gM) (unit := (sceneLoft loopNode gM).stableOfGang loneGang)
      (gang := loneGang) (r := Ray.of (List.replicate 8 0)) (w := 0 ||| 1#64)
      (ws := []) (by decide +kernel) (by decide +kernel) (by decide +kernel) (by decide +kernel) rayVisits
    simp only [State.rayOver, hv, h, Bool.not_false, Bool.and_self]
  · simp only [List.mem_cons, List.not_mem_nil, or_false] at hl
    obtain rfl | rfl := hl
    all_goals exact ⟨canonical_of (by decide +kernel), by decide +kernel, by decide +kernel, by decide +kernel⟩

def groomCmd : Cmd := cmd (.groom dGroom 0x40 0 0)
def grooming (st : Stable → Stable) : State := (at' gBusy).modStable 0 st
def job1 : GroomJob := { cmd := groomCmd, stall := 0, stable := 0, pixel := 256, cand := 0, mine := [], other := [],
                         waiting := false, skips := 3, cause := 8 }
theorem witness_EngineEvents_render :
    (let q := { called with inputs := [(0, [7])] }
     let s := withStall (at' caller) fun st => { st with calls := [q] }
     s.Canonical ∧ (s.stall 0).calling = none ∧ (s.stall 0).calls = [q]) ∧
    (let r := { gM with issues := 65536 }
     let s := sCall.setGroup (callableKey loneGang) r
     s.Canonical ∧ (s.stall 0).calling = some called ∧ s.runsOn (gangOf (callableKey called.gang)) = 0 ∧
     s.group? (callableKey called.gang) = some r ∧ 65536 ≤ r.issues ∧ called.who = .group ∧
     called.grp ≠ callableKey called.gang ∧ s.group? called.grp = some caller ∧
     caller.ops.map Op.kind = [.call]) ∧
    (let s := grooming fun x => { x with groomq := [groomCmd] }
     s.Canonical ∧ (s.stable 0).groomq = [groomCmd] ∧ (s.stable 0).jobs.length < 8 ∧ kwf Stable.fresh s.stables = true ∧
     s.cmdBehind groomCmd = false ∧
     (s.stall (s.runsOn groomCmd.gang)).blocked groomCmd.id
       ((s.stall (s.runsOn groomCmd.gang)).locks.filter fun l => l.cmd = groomCmd.id) = false) ∧
    (let s := grooming fun x => { x with jobs := [job1] }
     s.Canonical ∧ (s.stable 0).jobs[0]? = some job1 ∧ job1.done = true ∧ kwf Stable.fresh s.stables = true) :=
  ⟨⟨canonical_of (by decide +kernel), by decide +kernel⟩, ⟨canonical_of (by decide +kernel), by decide +kernel⟩,
   ⟨canonical_of (by decide +kernel), by decide +kernel⟩, ⟨canonical_of (by decide +kernel), by decide +kernel⟩⟩

/-! #### Remote operations -/

/-- A read or an atomic of 4 bytes on its way to offset `off` of stall 0. -/
def remoteOp (f : Option AOp) (off : Nat) : Op :=
  { opOf (.remote [0] f) with accs := [{ acc0 with va := BitVec.ofNat 64 off, loc := off, bytes := 4, value := 2 }] }
def awaitingReply (op : Op) : State := receiving (at' (gOp op))
def lockedRange (s : State) : State :=
  withStall s fun st => { st with locks := [{ dst := true, glb := false, base := 0x40, len := 64, eng := 0, qidx := 0, cmd := 0 }] }
def poisonedScr (s : State) : State :=
  { s with poison := kset false (kset false s.poison (scrKey 0 0x40) true) (scrKey 0 0x42) true }
def gangFor (f : Option AOp) (s : State) (off : Nat) : Option Nat :=
  if f.isSome then s.remoteWriteGang (lidOf loneGang) (BitVec.ofNat 64 0) (BitVec.ofNat 64 off) 4
  else s.remoteReadGang (lidOf loneGang) (BitVec.ofNat 64 0) (BitVec.ofNat 64 off) 4

theorem witness_RemoteEvents_access :
    (∀ f ∈ [none, some AOp.add, some AOp.cas], ∀ off ∈ [0x40, 0x42, 0x3FFFE], let s := awaitingReply (remoteOp f off)
      s.Canonical ∧ s.group? loneGroup = some (gOp (remoteOp f off)) ∧ (gOp (remoteOp f off)).ops = [remoteOp f off] ∧
      (remoteOp f off).kind = .remote [0] f ∧ s.hostOf 0 = 0 ∧ (gangFor f s off = none ↔ off = 0x3FFFE) ∧
      (s.stall 0).locked false off 4 f.isSome = false ∧ s.scrPoisoned 0 off 4 = false ∧
      (let u := poisonedScr s
       u.Canonical ∧ (gangFor f u off = none ↔ off = 0x3FFFE) ∧ (u.stall 0).locked false off 4 f.isSome = false ∧
       u.scrPoisoned 0 off 4 = decide (off ≠ 0x3FFFE)) ∧
      (let u := lockedRange s
       u.Canonical ∧ (gangFor f u off = none ↔ off = 0x3FFFE) ∧ (u.stall 0).locked false off 4 f.isSome = decide (off ≠ 0x3FFFE))) := by
  intro f hf off ho
  simp only [List.mem_cons, List.not_mem_nil, or_false] at hf ho
  obtain rfl | rfl | rfl := hf <;> obtain rfl | rfl | rfl := ho
  all_goals
    exact ⟨canonical_of (by decide +kernel), by decide +kernel, by decide +kernel, by decide +kernel, by decide +kernel,
      by decide +kernel, by decide +kernel, by decide +kernel,
      ⟨canonical_of (by decide +kernel), by decide +kernel, by decide +kernel, by decide +kernel⟩,
      canonical_of (by decide +kernel), by decide +kernel, by decide +kernel⟩

def claimed (e : Word) : State := (mapped (at' (gOp (opOf (.claim 0x20000 1))))).setWordAt 0x100000 0 e
def gProbe (task await' : Word) : Group :=
  { gM with r := { gM.r with taskId := task, await := await' }, probing := true, ops := [opOf .answered] }
/-- Two records: the second leads to the first, or to itself. -/
def probing (task await' next : Word) : State :=
  State.withWord (at' (gProbe task await')) (await'.toNat) 7 next
theorem witness_RemoteEvents_replies :
    (∀ k ∈ [OpKind.answered, .refused .scrBounds 1 0 false, .claim 0x20000 1, .tlbinv true 0 0, .volinv 0x20000 0 8],
      let op := { opOf k with dst := [.s 1], accs := [] }
      (at' (gOp op)).Canonical ∧ (at' (gOp op)).group? loneGroup = some (gOp op) ∧ (gOp op).ops = [op] ∧ op.dst = [.s 1] ∧
      kwf Stable.fresh (at' (gOp op)).stables = true) ∧
    (∃ pa e w, (claimed 7).walk 0x20000 = .ok w ∧ (claimed 7).leafAt 0x20000 = some (pa, e)) ∧
    (let op := { opOf (.tlbinv true 0 0) with dst := [.s 1], accs := [] }; (at' (gOp op)).tlbQuiet true 0 0 = true) ∧
    (let op := { opOf (.volinv 0x20000 0 8) with dst := [.s 1], accs := [] }
     (at' (gOp op)).volStalls 0 8 ≠ [] ∧ ∀ t ∈ (at' (gOp op)).volStalls 0 8, (at' (gOp op)).stallPending ((at' (gOp op)).hostOf t) = false) := by
  refine ⟨fun k hk => ?_, ?_, by decide +kernel, by decide +kernel⟩
  · simp only [List.mem_cons, List.not_mem_nil, or_false] at hk
    obtain rfl | rfl | rfl | rfl | rfl := hk
    all_goals exact ⟨canonical_of (by decide +kernel), by decide +kernel, by decide +kernel, by decide +kernel, by decide +kernel⟩
  · obtain ⟨p, hp⟩ := some_of (x := (claimed 7).leafAt 0x20000) (by decide +kernel)
    obtain ⟨w, hw⟩ := ok_of (x := (claimed 7).walk 0x20000) (by decide +kernel)
    exact ⟨p.1, p.2, w, hw, hp⟩

theorem witness_RemoteEvents_probes :
    (∀ p ∈ [((0 : Word), (0x20000 : Word), (0 : Word), ProbeEnd.ended), (0x20080, 0x20000, 0x20080, .deadlock),
        (0, 0x20000, 0x20000, .limit)], let s := probing p.1 p.2.1 p.2.2.1
      s.Canonical ∧ s.group? loneGroup = some (gProbe p.1 p.2.1) ∧ s.probe loneGroup = p.2.2.2) ∧
    (gProbe 0 0x20000).probing = true ∧ (gProbe 0 0x20000).standing = .slot ∧ isCallable loneGroup = false ∧
    (gProbe 0x20080 0x20000).r.taskId ≠ 0 ∧ (gProbe 0x20080 0x20000).ops.length = 1 := by
  refine ⟨fun p hp => ?_, by decide +kernel⟩
  simp only [List.mem_cons, List.not_mem_nil, or_false] at hp
  obtain rfl | rfl | rfl := hp
  all_goals exact ⟨canonical_of (by decide +kernel), by decide +kernel, by decide +kernel⟩

/-! #### Steps, and decoding -/

/-- ADD.S64 s1, s2, 5 and MUL.S64 s3, s4, 7 as words; MOVI s1. -/
def wordOf (i : Instr) : BitVec 96 := (encode i).getD 0
def addI : Instr := .add ⟨.s 1, .s 2, .imm 0, .zero, ty 6 0, 5⟩
def mulI : Instr := .vadd ⟨.v 2, .v 4, .v 6, .zero, ty 4 0, 0⟩
/-- The state after reset with one slot placed, and with a marked pair placed. -/
def sStep : State := State.reset.placeWord 96 (wordOf addI).toNat
def pairLine : Nat := encodeLine [wordOf addI, wordOf mulI] 1 1
def sPair : State := sStep.modStall 0 fun st => { st with lines := [(0x10000, pairLine)] }

def isNext (x : Host.Outcome State Fault Refusal) : Bool := match x with | .next _ => true | _ => false
/-- The hypotheses of StepRunsDecoded on a state with a given line. -/
def stepsB (s : State) (line : Nat) (i : Instr) : Bool :=
  let g := s.group loneGroup
  let s1 := { s with agenda := [] }
  let s2 := { s1 with cur := loneGroup }
  let n := (g.r.pc.extractLsb' 0 3).toNat
  s.agenda = [.issue 0] && s1.streakEnds 0 = none && s1.nextIssuer 0 = some loneGroup && !isCallable loneGroup &&
  s.group? loneGroup = some g && g.stage42 != .leaving && !(s2.myDbg.att && s2.myDbg.hreq) && !s2.atFirmware && g.deny.isNone && g.walk.isNone &&
  kwf Stall.fresh s.stalls && (s.translate (s.runsOn (gangOf loneGroup)) g.r.sup (lineOf g.r.pc) 64 .fetch).toBool &&
  (s.stall (s.runsOn (gangOf loneGroup))).heldLine (lineOf g.r.pc).toNat = some line && lineParityOk line && lineWordOk line &&
  g.r.pc.extractLsb' 3 3 = 0 && n < lineLive line && lineTgt line n &&
  (match decodeSlot (lineSlot line n) with | .ok j => decide (j = i) | .error _ => false)

theorem witness_StepRunsDecoded : stepsB sStep (encodeLine [wordOf addI] 0 1) addI = true ∧
    stepsB sPair pairLine addI = true ∧ linePair pairLine 0 = true ∧ pairRules addI (lineSlot pairLine 1) = true ∧
    (let s := ({ sPair with agenda := [], cur := loneGroup } : State)
     let u := (s.modMe fun g => { g with pairFirst := true }).ready pairLine
     u.secondWaits pairLine = false ∧ isNext (exec addI u) = true ∧ (after addI u).last = .retired ∧
     (after addI u).cur = loneGroup ∧ ((after addI u).group loneGroup).r.pc = (sPair.group loneGroup).r.pc + 1) ∧
    decodeSlot (lineSlot pairLine 1) = .ok mulI := by
  refine ⟨by decide +kernel, by decide +kernel, by decide +kernel, by decide +kernel, by decide +kernel,
    gives_of (by decide +kernel)⟩

def stepped (s : State) : State := match step s with | .next t => t | _ => s
theorem next_of {x : Host.Outcome State Fault Refusal} (h : isNext x = true) : ∃ t, x = .next t := by
  cases x with
  | next t => exact ⟨t, rfl⟩
  | fault f => simp [isNext] at h
  | refused r => simp [isNext] at h

/-- R253: both slots of a marked pair run in one step. -/
theorem test_step_pair : ((stepped sPair).group loneGroup).r.getS 1 = 5 ∧ ((stepped sPair).group loneGroup).r.pc = 0x10040 ∧
    ((stepped sPair).group loneGroup).ric = 2 := by decide +kernel

/-- R235, R199, R138: a host reads the reset values of SCHEDCFG and of a queue's LQCFG. -/
theorem test_view_reset : State.reset.readBar0 0 0x1030 = some 0x400 ∧ State.reset.readBar0 0 0x2000 = some 0x100000 := by
  decide +kernel

theorem witness_DecodeEncode : addI.WellFormed ∧ encode addI = some (wordOf addI) ∧ decodeSlot (wordOf addI) = .ok addI := by
  refine ⟨?_, by decide +kernel, gives_of (by decide +kernel)⟩
  rw [Instr.WellFormed]
  exact Option.isNone_iff_eq_none.mp (by decide +kernel)

theorem witness_CanonicalKept : sStep.Canonical ∧ (∃ t, step sStep = .next t) ∧ State.reset.Canonical ∧
    ∃ t, step State.reset = .next t :=
  ⟨canonical_of (by decide +kernel), next_of (by decide +kernel), canonical_of (by decide +kernel), next_of (by decide +kernel)⟩

/-! #### Further clauses: forms and values that the witnesses above leave out -/

def gBadO4 : Group := gR (vN 9 0 0x88)
def gLarge : Group := gR (vN 11 0 0x3F800000 ∘ vN 12 0 0x477FF000)
theorem witness_Conversions_traps :
    Ready (.cvt cvt1) (at' gBadO4) gBadO4 ∧
    (gBadO4.r.active.filter fun l => [(cvt1.sel, laneOf cvt1 gBadO4.r cvt1.a cvt1.srcTy l)].any (badO4 cvt1)) = [0] ∧
    Ready (.cvt cvt2) (at' gBig) gBig ∧
    (gBig.r.active.filter fun l => [(cvt2.sel, laneOf cvt2 gBig.r cvt2.a cvt2.srcTy l)].any (overflows cvt2)) = [0] ∧
    (let o := { cvtd1 with mod := ty 9 1537 }
     Ready (.cvtd o) (at' gLarge) gLarge ∧
     (gLarge.r.active.filter fun l => ([o.a, o.b].flatMap fun x => (List.range (32 / o.srcTy.bits)).map fun e =>
       (e, laneOf o gLarge.r x o.srcTy l)).any (overflows o)) = [0]) :=
  ⟨ready_of (by decide +kernel), by decide +kernel, ready_of (by decide +kernel), by decide +kernel,
   ready_of (by decide +kernel), by decide +kernel⟩

def gFar : Group := gR (vN 6 0 40)
theorem witness_GroupShuffle_wide :
    (∀ i ∈ [Instr.gshf { gshf1 with mod := 3 }, .gshf { gshf1 with mod := 7 }], Ready i (at' gFar) gFar) ∧
    gFar.r.exm ≠ 0 ∧ gFar.ld < 63 ∧ ({ gshf1 with mod := 7 } : Slot).wid = 3 ∧
    ({ gshf1 with mod := 7 } : Slot).bit34 = true ∧
    32 >>> gFar.r.lpart.toNat ≤ laneOf gshf1 gFar.r gshf1.c .n32 0 :=
  ⟨ready_all (by decide +kernel), by decide +kernel⟩

theorem witness_Reductions_floats : (∀ i ∈ [Instr.redmin (vec1 8 0), .redmax (vec1 8 0)], Ready i st1 g1) ∧
    (vec1 8 0).ty = .f32 ∧ g1.r.active = [0] ∧ g1.r.lpart.toNat ≤ 4 := ⟨ready_all (by decide +kernel), by decide +kernel⟩

theorem witness_GlobalLoads_acquire : stM.Canonical ∧ gM.r.active = [0] ∧ (ldg 2).ord = 2 ∧ (ldg 0).ord = 0 ∧
    (∀ op ∈ gM.ops, op.performed = true) ∧ (after (.lds (lds 0)) stM).last = .retired :=
  ⟨stM_canonical, by decide +kernel⟩

/-- A load of two accesses, and one of a single access of a cached page. -/
def loading2 : Op := { loading with accs := [{ acc0 with loc := 0x20008, bytes := 4, uncached := true },
  { acc0 with lane := 1, loc := 0x2000C, bytes := 4, uncached := true }] }
def loading1 : Op := { loading with accs := [{ acc0 with loc := 0x20008, bytes := 4 }] }
theorem witness_LoadCompletion_forms :
    (∀ op ∈ [{ opOf .taken with result := [.v 6 0 5] }, { opOf .load with result := [.v 6 0 5] },
        { opOf (.atomic .add) with result := [.v 6 0 5] }], let g := gOp op
      (at' g).group? loneGroup = some g ∧ g.ops[0]? = some op ∧ op.countsLd = true ∧ op.performed = true) ∧
    (∀ op ∈ [loading2, loading1], let g := gOp op
      (at' g).group? loneGroup = some g ∧ g.ops[0]? = some op ∧ op.countsLd = true ∧ op.kind = .load ∧
      op.performed = false ∧ op.got = [] ∧ op.accs ≠ [] ∧ (at' g).Canonical) ∧
    (∀ a ∈ loading2.accs, a.uncached = true) ∧ 1 < loading2.accs.length ∧ (∀ a ∈ loading1.accs, a.uncached = false) ∧
    (0x20008 / 32 = (0x20008 + 4 - 1) / 32) ∧ ((at' (gOp loading1)).stall 0).victim? (0x20008 / 64) = none := by
  refine ⟨by decide +kernel, fun op ho => ?_, by decide +kernel, by decide +kernel, by decide +kernel, by decide +kernel,
    by decide +kernel⟩
  simp only [List.mem_cons, List.not_mem_nil, or_false] at ho
  obtain rfl | rfl := ho
  all_goals exact ⟨by decide +kernel, by decide +kernel, by decide +kernel, by decide +kernel, by decide +kernel,
    by decide +kernel, by decide +kernel, canonical_of (by decide +kernel)⟩

theorem witness_LocalLoads_loft : lofty.Canonical := canonical_of (by decide +kernel)

theorem witness_Waits_loads : let g := gOp loading1
    (∀ i ∈ [Instr.acq none', .fence none'], Ready i (at' g) g) ∧ (at' g).Canonical ∧ g.storesGranted = true ∧
    g.ops = [loading1] ∧ loading1.kind = .load ∧ loading1.performed = false ∧ loading1.got = [] ∧ loading1.accs.length = 1 :=
  ⟨ready_all (by decide +kernel), canonical_of (by decide +kernel), by decide +kernel⟩

/-- The group's store has been granted its word, which its stall owns. -/
def gWrote : Group := { gM with wrote := [0x8000] }
def sWrote : State := (at' gWrote).grantWord 0 0x8000 [(0x20000, 7)]
theorem witness_StintClose_wrote : sWrote.group? sWrote.cur = some gWrote ∧ sWrote.Canonical ∧
    sWrote.ownerOf (4 * 0x8000) = some (sWrote.stallOf sWrote.cur) ∧ homeOfLoc (4 * 0x8000) ≠ 0x1FF :=
  ⟨by decide +kernel, canonical_of (by decide +kernel), by decide +kernel, by decide +kernel⟩

def atomr3 (ord : Nat) : Slot := { atomr with mod := ty 5 (1024 * ord) }
def atomrReply : Op := { opOf .replied with dst := [], result := [.v 6 0 5], counted := true }
def gAtomr : Group := gOp atomrReply
theorem witness_BoundaryEffects_atomr : Starts gAtomr.dropErrand ∧
    answered gAtomr atomrReply ∧ (∀ ws, gAtomr.heldReply ≠ some (gAtomr.r.pc, ws)) ∧
    (∀ ord ∈ [3, 4], (atomr3 ord).ord = ord ∧ Ready (.atomR (atomr3 ord)) (at' gAtomr) gAtomr) ∧
    (let u := replied ((at' gAtomr).setMe gAtomr.dropErrand) [.v 6 0 5]; Credits u ∧ Credits (u.acquireAt u.here)) := by
  refine ⟨starts_of (by decide +kernel), ⟨by decide +kernel, rfl⟩, fun ws => ?_, fun ord ho => ?_, credits_of (by decide +kernel),
    credits_of (by decide +kernel)⟩
  · rw [show gAtomr.heldReply = none by decide +kernel]; simp
  · simp only [List.mem_cons, List.not_mem_nil, or_false] at ho
    obtain rfl | rfl := ho
    all_goals exact ⟨by decide +kernel, ready_of (by decide +kernel)⟩

theorem witness_PlaneRequests_plz : kwf false (stM.stall stM.here).zmap = true := by decide +kernel

theorem witness_RayRequests_stored : Ready (.volld volld1) sClb gM ∧
    (let vs := [(0, Voxel.stored [{ acc0 with va := 0x21000, loc := 0x21000, bytes := 4 }])]
     gatherVoxels volld1 false sClb = .ok (movedBy volld1 false sClb, vs) ∧
     (∀ a ∈ voxelAccsOf vs, sClb.pendingByOther a.loc a.bytes = false) ∧ (voxelAccsOf vs).length = 1 ∧
     (vs.map Prod.fst).Nodup ∧ ∀ l as, (l, Voxel.stored as) ∈ vs → ∀ a ∈ as, a.lane = l) ∧
    (movedBy volld1 false sClb).Canonical ∧ ∀ op ∈ (movedBy volld1 false sClb).me.ops, op.performed = true := by
  refine ⟨ready_of (by decide +kernel), ⟨pair_of _ (by decide +kernel), by decide +kernel, by decide +kernel,
    by decide +kernel, ?_⟩, canonical_of (by decide +kernel), by decide +kernel⟩
  simp [acc0]

theorem witness_HostRequests_reads :
    (∀ p ∈ panel0.groups, p.2.blocked = none) ∧ panel0.Canonical ∧ kwf Port.fresh panel0.ports = true ∧
    (panel0.readBar0 0 0).isSome = true ∧ panel0.readBar0 0 (2 ^ 29 / 8 * 8) = none ∧
    (panel0.readBar4 0 0).isSome = true ∧ panel0.readBar4 0 (2 ^ 38 / 8 * 8) = none ∧ (0 : Nat) + 8 ≤ 2 ^ 43 ∧
    panel0.poisonAt 0 = false :=
  ⟨by decide +kernel, canonical_of (by decide +kernel), by decide +kernel⟩

theorem witness_FailureEvents_more :
    stM.gmem.wf = true ∧ (stM.loseStable 287).strandedDies = [] ∧
    (linkUp PLink.fresh).Canonical ∧ (∀ op ∈ (gOp (farLoad 0x10)).ops, ∀ a ∈ op.accs, a.lane < 32) :=
  ⟨by decide +kernel, by decide +kernel, canonical_of (by decide +kernel), by decide +kernel⟩

theorem witness_Exits_canonical : (at' gIn).Canonical ∧ (at' gIn).recordsDead (gangOf (at' gIn).cur) = false :=
  ⟨canonical_of (by decide +kernel), by decide +kernel⟩

theorem witness_MemoryEvents_canonical :
    (sFetch.writeCoherentN 0 64 (loneLine 0)).Canonical ∧ sStep.Canonical ∧ sPair.Canonical :=
  ⟨canonical_of (by decide +kernel), canonical_of (by decide +kernel), canonical_of (by decide +kernel)⟩

theorem witness_BoundaryEffects_reachable :
    ([(0, 0), (4, 0), (4, 1)].all fun p => (sQueue p.1 p.2).ownReachable) = true ∧
    sObj.scrPoisoned sObj.here 0x40 32 = false ∧ sObj5.scrPoisoned sObj5.here 0x40 32 = false :=
  ⟨by decide +kernel, by decide +kernel, by decide +kernel⟩

theorem witness_LaunchEvents_ends : (∃ s' q t, sTaken.raiseGuards.decide [0, 1, 2, 3] = (s', some (q, t)) ∧ kwf Stall.fresh sTaken.stalls = true) ∧
  (withGang { gM with standing := .exited } fun x => { x with phase := .imaged }).gangDone loneGang = true :=
  ⟨⟨_, _, _, first_of (b := (5, 0)) (by decide +kernel), by decide +kernel⟩, by decide +kernel⟩

end Sys2Proof.Tests
end

/-!
PROOFS of the statements on scalar operations, moves, masks and branches (R269 to R282). First the model's functions on
bit patterns as the operations of bit vectors of every width, then what the checks of R264 leave of an instruction and
what an issue that transfers control comes to, then the instructions.
-/

namespace Sys2Proof.Machine

open Sys2Proof.Claim

/-! ### Bit patterns as bit vectors (R272) -/

theorem ofNat_mod_two_pow (n x : Nat) : BitVec.ofNat n (x % 2 ^ n) = BitVec.ofNat n x :=
  BitVec.eq_of_toNat_eq (by simp)

theorem ofNat_shiftLeft (n x p : Nat) : BitVec.ofNat n (x <<< p) = BitVec.ofNat n x <<< p :=
  BitVec.eq_of_toNat_eq (by simp [Nat.shiftLeft_eq])

theorem ofNat_notN (n x : Nat) : BitVec.ofNat n (notN n x) = ~~~BitVec.ofNat n x := by
  apply BitVec.eq_of_toNat_eq
  have := Nat.mod_lt x (Nat.two_pow_pos n)
  simp only [notN, BitVec.toNat_ofNat, BitVec.toNat_not]
  exact Nat.mod_eq_of_lt (by omega)

theorem ofNat_shlN (n a t : Nat) : BitVec.ofNat n (shlN n a t) = BitVec.ofNat n a <<< t := by
  by_cases h : t < n
  · exact BitVec.eq_of_toNat_eq (by simp [shlN, h])
  · rw [BitVec.shiftLeft_eq_zero (by omega)]
    simp [shlN, h]

theorem ofNat_shrN (n a t : Nat) : BitVec.ofNat n (shrN n a t) = BitVec.ofNat n a >>> t := by
  by_cases h : t < n
  · have hlt : (a % 2 ^ n) >>> t < 2 ^ n :=
      Nat.lt_of_le_of_lt (Nat.shiftRight_le _ _) (Nat.mod_lt _ (Nat.two_pow_pos n))
    exact BitVec.eq_of_toNat_eq (by simp [shrN, h, Nat.mod_eq_of_lt hlt])
  · rw [BitVec.ushiftRight_eq_zero (by omega)]
    simp [shrN, h]

theorem getLsbD_ofNat_of_lt {n i : Nat} (a : Nat) (h : i < n) : (BitVec.ofNat n a).getLsbD i = a.testBit i := by
  rw [BitVec.getLsbD_ofNat, decide_eq_true h, Bool.true_and]

theorem ofNat_sarN (n a t : Nat) : BitVec.ofNat n (sarN n a t) = (BitVec.ofNat n a).sshiftRight t := by
  by_cases h : t < n
  · have hdiv : sext a n / 2 ^ t = ((BitVec.ofNat n a).sshiftRight t).toInt := by
      rw [BitVec.toInt_sshiftRight, Int.shiftRight_eq_div_pow, sext_eq_toInt]; norm_cast
    rw [sarN, if_pos h, hdiv, wrapInt_eq, BitVec.ofInt_toInt, BitVec.ofNat_toNat, BitVec.setWidth_eq]
  · have hmsb : (a % 2 ^ n).testBit (n - 1) = (BitVec.ofNat n a).msb := by
      rw [BitVec.msb_eq_getLsbD_last, ← BitVec.testBit_toNat, BitVec.toNat_ofNat]
    apply BitVec.eq_of_getLsbD_eq
    intro i hi
    have hi' : ¬ t + i < n := by omega
    rw [sarN, if_neg h, hmsb, BitVec.getLsbD_sshiftRight, if_neg hi']
    cases (BitVec.ofNat n a).msb
    · simp
    · rw [if_pos rfl, getLsbD_ofNat_of_lt _ hi, Nat.testBit_two_pow_sub_one]
      simp [hi]

theorem ofNat_rolN (n a t : Nat) : BitVec.ofNat n (rolN n a t) = (BitVec.ofNat n a).rotateLeft t := by
  apply BitVec.eq_of_toNat_eq
  have hr : (a % 2 ^ n) >>> (n - t % n) < 2 ^ n :=
    Nat.lt_of_le_of_lt (Nat.shiftRight_le _ _) (Nat.mod_lt _ (Nat.two_pow_pos n))
  simp [rolN, BitVec.rotateLeft, BitVec.rotateLeftAux, Nat.or_mod_two_pow, Nat.mod_eq_of_lt hr]

theorem rotateLeft_sub_mod {n : Nat} (x : BitVec n) (t : Nat) : x.rotateLeft (n - t % n) = x.rotateRight t := by
  rcases Nat.eq_zero_or_pos n with rfl | hn
  · exact Subsingleton.elim _ _
  · have hlt := Nat.mod_lt t hn
    simp only [BitVec.rotateLeft, BitVec.rotateRight, BitVec.rotateLeftAux, BitVec.rotateRightAux]
    by_cases h : t % n = 0
    · simp [h, BitVec.ushiftRight_eq_zero]
    · rw [Nat.mod_eq_of_lt (by omega : n - t % n < n), Nat.sub_sub_self (Nat.le_of_lt hlt)]
      exact BitVec.or_comm _ _

theorem ofNat_rorN (n a t : Nat) : BitVec.ofNat n (rorN n a t) = (BitVec.ofNat n a).rotateRight t := by
  rw [rorN, ofNat_rolN, rotateLeft_sub_mod]

/-- The highest set bit of a nonzero vector stands below its leading zeros. -/
theorem toNat_clz_of_ne_zero {n : Nat} {x : BitVec n} (hx : x ≠ 0#n) : x.clz.toNat = n - 1 - x.toNat.log2 := by
  have hpos : x.toNat ≠ 0 := fun h => hx (BitVec.eq_of_toNat_eq h)
  have hhi : x.toNat < 2 ^ (n - x.clz.toNat) := BitVec.toNat_lt_two_pow_sub_clz
  have hlt : x.clz.toNat < n := Nat.lt_of_not_le fun hc => by
    rw [Nat.sub_eq_zero_of_le hc, Nat.pow_zero] at hhi
    omega
  have hlo := BitVec.two_pow_sub_clz_le_toNat_of_ne_zero (Nat.zero_lt_of_lt hlt) hx
  rw [show n - x.clz.toNat = n - 1 - x.clz.toNat + 1 by omega] at hhi
  rw [(Nat.log2_eq_iff hpos).mpr ⟨hlo, hhi⟩]
  omega

theorem ofNat_clzN (n a : Nat) : BitVec.ofNat n (clzN n a) = (BitVec.ofNat n a).clz := by
  have hval : (BitVec.ofNat n a).toNat = a % 2 ^ n := BitVec.toNat_ofNat ..
  by_cases h : a % 2 ^ n = 0
  · have hz : BitVec.ofNat n a = 0#n := BitVec.eq_of_toNat_eq (by simp [h])
    rw [clzN, if_pos h, BitVec.clz_eq_iff_eq_zero.mpr hz]; rfl
  · have hne : BitVec.ofNat n a ≠ 0#n := fun hz => h (by rw [← hval, hz]; rfl)
    rw [clzN, if_neg h, ← hval, ← toNat_clz_of_ne_zero hne, BitVec.ofNat_toNat, BitVec.setWidth_eq]

theorem ofNat_ctzN (n a : Nat) : BitVec.ofNat n (ctzN n a) = (BitVec.ofNat n a).ctz := by
  cases hf : (List.range n).find? fun i => a.testBit i with
  | none =>
    have hz : BitVec.ofNat n a = 0#n := by
      apply BitVec.eq_of_getLsbD_eq
      intro i hi
      simpa [getLsbD_ofNat_of_lt a hi] using List.find?_eq_none.mp hf i (List.mem_range.mpr hi)
    rw [ctzN, hf, Option.getD_none, BitVec.ctz, BitVec.clz_eq_iff_eq_zero.mpr (BitVec.reverse_eq_zero_iff.mpr hz)]; rfl
  | some k =>
    obtain ⟨hk, hkn, hlow⟩ := List.find?_range_eq_some.mp hf
    have hbit : (BitVec.ofNat n a).getLsbD k = true := by
      rw [getLsbD_ofNat_of_lt a (List.mem_range.mp hkn), hk]
    have hne : BitVec.ofNat n a ≠ 0#n := fun hz => by simp [hz] at hbit
    have hctz := BitVec.getLsbD_true_ctz_of_ne_zero hne
    have hle : (BitVec.ofNat n a).ctz.toNat ≤ k := Nat.le_of_not_lt fun hc =>
      Bool.false_ne_true ((BitVec.getLsbD_false_of_lt_ctz hc).symm.trans hbit)
    have hge : k ≤ (BitVec.ofNat n a).ctz.toNat := Nat.le_of_not_lt fun hc => by
      rw [BitVec.getLsbD_ofNat, Bool.and_eq_true] at hctz
      have hclear := hlow _ hc
      rw [hctz.2] at hclear
      exact Bool.false_ne_true hclear
    rw [ctzN, hf, Option.getD_some, Nat.le_antisymm hge hle, BitVec.ofNat_toNat, BitVec.setWidth_eq]

theorem cpopNatRec_eq_length {n : Nat} (x : BitVec n) (k : Nat) :
    x.cpopNatRec k 0 = ((List.range k).filter x.getLsbD).length := by
  induction k with
  | zero => rfl
  | succ k ih =>
    rw [BitVec.cpopNatRec_succ, BitVec.cpopNatRec_eq, ih, List.range_succ, List.filter_append, List.length_append]
    cases hb : x.getLsbD k <;> simp [hb]

theorem ofNat_popN (n a : Nat) : BitVec.ofNat n (popN n a) = (BitVec.ofNat n a).cpop := by
  have hbits : (List.range n).filter (fun i => a.testBit i) = (List.range n).filter (BitVec.ofNat n a).getLsbD :=
    List.filter_congr fun i hi => (getLsbD_ofNat_of_lt a (List.mem_range.mp hi)).symm
  rw [popN, hbits, ← cpopNatRec_eq_length, BitVec.cpop]

theorem testBit_foldl_or (p : Nat → Bool) (k r i : Nat) :
    ((List.range k).foldl (fun r j => if p j then r ||| 2 ^ j else r) r).testBit i =
      (r.testBit i || (decide (i < k) && p i)) := by
  induction k with
  | zero => simp
  | succ k ih =>
    rw [List.range_succ, List.foldl_append, List.foldl_cons, List.foldl_nil]
    by_cases hi : i = k
    · subst hi
      cases hp : p i <;> simp [hp, ih, Nat.testBit_two_pow_self]
    · have hk : i < k + 1 ↔ i < k := by omega
      cases hp : p k <;> simp [ih, hk, Ne.symm hi]

theorem ofNat_brevN (n a : Nat) : BitVec.ofNat n (brevN n a) = (BitVec.ofNat n a).reverse := by
  apply BitVec.eq_of_getLsbD_eq
  intro i hi
  have hj : n - 1 - i < n := by omega
  rw [BitVec.getLsbD_reverse, BitVec.getMsbD, BitVec.getLsbD_ofNat, BitVec.getLsbD_ofNat, brevN,
    testBit_foldl_or fun j => a.testBit (n - 1 - j)]
  simp [hi, hj]

/-! ### Fields (R274) -/

theorem ofNat_field (n m p a : Nat) :
    BitVec.ofNat m ((a % 2 ^ n) >>> p % 2 ^ m) = (BitVec.ofNat n a).extractLsb' p m :=
  BitVec.eq_of_toNat_eq (by simp [BitVec.extractLsb'_toNat])

theorem ofNat_bfxN_unsigned (n a ctl : Nat) : BitVec.ofNat n (bfxN false n a ctl) =
    ((BitVec.ofNat n a).extractLsb' (ctl % 256) (fieldLen n ctl)).setWidth n := by
  apply BitVec.eq_of_toNat_eq
  rw [BitVec.toNat_setWidth, BitVec.extractLsb'_toNat, BitVec.toNat_ofNat, BitVec.toNat_ofNat, bfxN]
  split
  next hm => simp [hm, Nat.mod_one]
  next => rfl

theorem ofNat_bfxN_signed (n a ctl : Nat) : BitVec.ofNat n (bfxN true n a ctl) =
    ((BitVec.ofNat n a).extractLsb' (ctl % 256) (fieldLen n ctl)).signExtend n := by
  rw [bfxN]
  by_cases hm : fieldLen n ctl = 0
  · rw [BitVec.signExtend, BitVec.toInt_of_zero_length hm]
    simp [hm]
  · rw [if_neg hm, if_pos rfl, sext_eq_toInt, ofNat_field, wrapInt_eq, BitVec.ofNat_toNat, BitVec.setWidth_eq,
      BitVec.signExtend]

theorem sub_and_self_eq_and_not {n : Nat} (x y : BitVec n) : x - (x &&& y) = x &&& ~~~y := by
  have hdisj : (x &&& ~~~y) &&& (x &&& y) = 0#n := by ext i; simp +contextual
  have hjoin : (x &&& ~~~y) ||| (x &&& y) = x := by
    rw [← BitVec.and_or_distrib_left]; ext i; simp
  calc x - (x &&& y)
      = (x &&& ~~~y) + (x &&& y) - (x &&& y) := by rw [BitVec.add_eq_or_of_and_eq_zero _ _ hdisj, hjoin]
    _ = x &&& ~~~y := BitVec.add_sub_cancel _ _

/-- The bits p to p + m − 1 of an n-bit pattern. -/
def fieldMask (n p m : Nat) : BitVec n := BitVec.ofNat n ((2 ^ m - 1) <<< p)

theorem ofNat_bfiN (n a ctl c : Nat) : BitVec.ofNat n (bfiN n a ctl c) =
    BitVec.ofNat n c &&& ~~~fieldMask n (ctl % 256) (fieldLen n ctl) |||
      BitVec.ofNat n (a % 2 ^ fieldLen n ctl) <<< (ctl % 256) := by
  rw [bfiN]
  by_cases hm : fieldLen n ctl = 0
  · simp [hm, fieldMask, Nat.mod_one, ofNat_mod_two_pow]
  · have hle : c % 2 ^ n &&& (2 ^ fieldLen n ctl - 1) <<< (ctl % 256) ≤ c % 2 ^ n := Nat.and_le_left
    rw [if_neg hm, ofNat_mod_two_pow, BitVec.ofNat_or, ofNat_shiftLeft, ← sub_and_self_eq_and_not, fieldMask,
      ← BitVec.ofNat_sub_ofNat_of_le _ _ (Nat.lt_of_le_of_lt hle (Nat.mod_lt _ (Nat.two_pow_pos n))) hle,
      BitVec.ofNat_and, ofNat_mod_two_pow]

theorem getLsbD_bfiN {n i : Nat} (a ctl c : Nat) (hi : i < n) :
    (BitVec.ofNat n (bfiN n a ctl c)).getLsbD i =
      if ctl % 256 ≤ i ∧ i < ctl % 256 + fieldLen n ctl
      then (BitVec.ofNat n a).getLsbD (i - ctl % 256) else (BitVec.ofNat n c).getLsbD i := by
  rw [ofNat_bfiN, fieldMask, BitVec.getLsbD_or, BitVec.getLsbD_and, BitVec.getLsbD_not, BitVec.getLsbD_shiftLeft]
  simp only [BitVec.getLsbD_ofNat, Nat.testBit_shiftLeft, Nat.testBit_two_pow_sub_one, Nat.testBit_mod_two_pow]
  by_cases hp : ctl % 256 ≤ i
  · by_cases hm : i - ctl % 256 < fieldLen n ctl
    · have : i < ctl % 256 + fieldLen n ctl := by omega
      have hn : i - ctl % 256 < n := by omega
      simp [hi, hp, hm, this, hn]
    · have : ¬ i < ctl % 256 + fieldLen n ctl := by omega
      simp [hi, hp, hm, this]
  · simp [hi, hp, Nat.lt_of_not_le hp]

/-! ### Masks and displacements (R270, R279) -/

theorem oneBit_of_lowest {m : BitVec 32} (h0 : m ≠ 0) (h : lowest m = m) : oneBit m = true := by
  have hclear : m &&& (m - 1) = 0 :=
    calc m &&& (m - 1)
        = m &&& ~~~(-m) := by rw [BitVec.not_neg]; rfl
      _ = (m &&& -m) &&& ~~~(-m) := congrArg (· &&& ~~~(-m)) h.symm
      _ = 0 := by rw [BitVec.and_assoc, BitVec.and_not_self]; exact BitVec.and_zero
  rw [oneBit, hclear, decide_eq_true h0]; rfl

theorem lowestBit_eq_lowest (m : BitVec 32) : lowestBit m = lowest m :=
  congrArg (m &&& ·) (BitVec.zero_sub m)

theorem dispTarget_eq_displaced (o : Slot) (pc : Word) : dispTarget o pc = displaced o pc := by
  have hmul (x : Word) : x <<< 6 = x * 64 := BitVec.shiftLeft_eq_mul_twoPow x 6
  rw [dispTarget, displaced, hmul]; rfl

/-! ### Typed values (R54, R260, R271, R273) -/

theorem toScalar_eq_extended (t : ETy) (x : Int) : toScalar t x = extended t (BitVec.ofInt t.bits x) := by
  cases h : t.signed
  · rw [toScalar_unsigned h, extended, h, if_neg Bool.false_ne_true]
  · rw [toScalar_signed h, extended, h, if_pos rfl]

/-- A comparison's result is 1 or 0 in every type. -/
theorem toScalar_ite (t : ETy) (b : Bool) : toScalar t (if b then 1 else 0) = if b then 1 else 0 := by
  cases b <;> cases t <;> decide

theorem condInt_toNat {n cond : Nat} (hc : cond ≤ 5) (x y : BitVec n) :
    condInt cond x.toNat y.toNat = compared false cond x y :=
  match cond, hc with
  | 0, _ => decide_eq_decide.mpr (Int.ofNat_inj.trans BitVec.toNat_inj)
  | 1, _ => congrArg not (decide_eq_decide.mpr (Int.ofNat_inj.trans BitVec.toNat_inj))
  | 2, _ => decide_eq_decide.mpr Int.ofNat_lt
  | 3, _ => decide_eq_decide.mpr Int.ofNat_le
  | 4, _ => decide_eq_decide.mpr Int.ofNat_lt
  | 5, _ => decide_eq_decide.mpr Int.ofNat_le

theorem condInt_toInt {n cond : Nat} (hc : cond ≤ 5) (x y : BitVec n) :
    condInt cond x.toInt y.toInt = compared true cond x y :=
  match cond, hc with
  | 0, _ => decide_eq_decide.mpr BitVec.toInt_inj
  | 1, _ => congrArg not (decide_eq_decide.mpr BitVec.toInt_inj)
  | 2, _ => rfl
  | 3, _ => rfl
  | 4, _ => rfl
  | 5, _ => rfl

/-- The six conditions that integers have, on the low bits of two operands (R260). -/
theorem condInt_extTy {cond : Nat} (hc : cond ≤ 5) (t : ETy) (a b : Word) :
    condInt cond (extTy t a.toNat) (extTy t b.toNat) =
      compared t.signed cond (a.setWidth t.bits) (b.setWidth t.bits) := by
  cases h : t.signed
  · rw [extTy_unsigned h, extTy_unsigned h, condInt_toNat hc]
  · rw [extTy_signed h, extTy_signed h, condInt_toInt hc]

/-- A divisor is zero where its low bits are. -/
theorem extTy_eq_zero_iff (t : ETy) (b : Word) : extTy t b.toNat = 0 ↔ b.setWidth t.bits = 0 := by
  cases h : t.signed
  · rw [extTy_unsigned h, Int.natCast_eq_zero, ← BitVec.toNat_inj]; rfl
  · rw [extTy_signed h, ← BitVec.toInt_inj, show (0 : BitVec t.bits).toInt = 0 from BitVec.toInt_zero]

theorem ofInt_divT_toInt {n : Nat} (x y : BitVec n) : BitVec.ofInt n (divT x.toInt y.toInt) = x.sdiv y :=
  BitVec.eq_of_toInt_eq (by rw [BitVec.toInt_ofInt, BitVec.toInt_sdiv, divT])

theorem ofInt_divT_toNat {n : Nat} (x y : BitVec n) : BitVec.ofInt n (divT x.toNat y.toNat) = x / y := by
  rw [divT, ← Int.ofNat_tdiv, BitVec.ofInt_natCast, ← BitVec.toNat_udiv, BitVec.ofNat_toNat, BitVec.setWidth_eq]

theorem ofInt_remT_toInt {n : Nat} (x y : BitVec n) : BitVec.ofInt n (remT x.toInt y.toInt) = x.srem y := by
  rw [remT, ← BitVec.toInt_srem, BitVec.ofInt_toInt]

theorem ofInt_remT_toNat {n : Nat} (x y : BitVec n) : BitVec.ofInt n (remT x.toNat y.toNat) = x % y := by
  rw [remT, ← Int.ofNat_tmod, BitVec.ofInt_natCast, ← BitVec.toNat_umod, BitVec.ofNat_toNat, BitVec.setWidth_eq]

end Sys2Proof.Machine

namespace Sys2Proof

open Sys2Proof.Machine Sys2Proof.Claim

/-! ### What the checks of R264 leave of an instruction -/

theorem ite_some_eq_none_iff {α : Type} {b : Bool} {e : α} {x : Option α} :
    (if !b then some e else x) = none ↔ b = true ∧ x = none := by
  cases b
  · exact ⟨fun h => absurd h (Option.some_ne_none e), fun h => absurd h.1 Bool.false_ne_true⟩
  · exact ⟨fun h => ⟨rfl, h⟩, fun h => h.2⟩

theorem Instr.checks_of_legal {i : Instr} {f : Form} {o : Slot} (he : i.encoded = some (f, o)) (h : i.defect = none) :
    f.kindsOk o = true ∧ (f.immOk o = true ∧ i.immRangeOk = true) ∧ (f.modOk o = true ∧ i.modRangeOk = true) ∧
    (f.typeOk o = true ∧ f.widOk o = true) ∧ f.regsOk o 64 = true ∧ i.dstOk = true := by
  rw [Instr.defect, he] at h
  simp only [ite_some_eq_none_iff, Bool.and_eq_true, and_true] at h
  exact h

/-- A legal instruction of a row that lists types has one of them (R262). -/
theorem Instr.ty_mem_of_legal {i : Instr} {f : Form} {o : Slot} (he : i.encoded = some (f, o)) (h : i.defect = none)
    (hne : f.types.isEmpty = false) : o.ty ∈ f.types := by
  obtain ⟨-, -, -, ⟨hty, -⟩, -⟩ := Instr.checks_of_legal he h
  rw [Form.typeOk, hne, Bool.false_or] at hty
  rw [Slot.ty]
  cases ht : o.ty? with
  | none => simp [ht] at hty
  | some t => simpa [ht] using hty

theorem signed_of_mem_tySigned : ∀ t ∈ tySigned, t.signed = true := by decide
theorem unsigned_of_mem_tyUnsigned : ∀ t ∈ tyUnsigned, t.signed = false := by decide

/-- CMP and BRC refuse UN and ORD (R260). -/
theorem Instr.cond_le_of_cmp {o : Slot} (h : (Instr.cmp o).defect = none) : o.cond ≤ 5 := by
  obtain ⟨-, -, ⟨-, hcond⟩, -⟩ := Instr.checks_of_legal rfl h
  exact of_decide_eq_true hcond

theorem Instr.cond_le_of_brc {o : Slot} (h : (Instr.brc o).defect = none) : o.cond ≤ 5 := by
  obtain ⟨-, -, ⟨-, hcond⟩, -⟩ := Instr.checks_of_legal rfl h
  exact of_decide_eq_true hcond

namespace Machine

variable {i : Instr} {o : Slot} {s : State} {g : Group} {core : State → Eff} {r : Regs} {t : Word}

/-! ### What an issue comes to -/

/-- A ready instruction whose core leaves the state with another group in issue. -/
theorem issueLogged_setMe {g' : Group} (h : Ready i s g) (hc : core s = .ok (s.setMe g')) :
    issueLogged i core s = .next (s.retiredAs g' g'.r) := by
  rw [issueLogged_ok h hc (State.group?_setMe s g')]
  simp [State.retiredAs, State.setMe, State.setGroup, kinsert_kinsert_self]

theorem issueLogged_same (h : Ready i s g) (hc : core s = .ok s) : issueLogged i core s = .next (s.retiredAs g g.r) :=
  issueLogged_ok h hc h.here

/-- A ready instruction whose core transfers control. -/
theorem issueLogged_jump (h : Ready i s g) (hc : core s = .ok (s.jump t)) :
    issueLogged i core s = .next (s.retiredAs (jumped g t) g.r) := by
  have hto : s.jump t = s.setMe (jumped g t) := State.modMe_of (State.me_of_group? h.here) _
  exact issueLogged_setMe h (hc.trans (congrArg Except.ok hto))

/-- A ready instruction whose core writes registers other than PC and transfers control. -/
theorem issueLogged_setRegs_jump (h : Ready i s g) (hc : core s = .ok ((s.setRegs r).jump t)) (hpc : r.pc = g.r.pc) :
    issueLogged i core s = .next (s.retiredAs (jumped g t) r) := by
  have hto : (s.setRegs r).jump t = s.setMe { jumped g t with r := r } := by
    simp [State.jump, State.setRegs, State.modMe, State.me_of_group? h.here, jumped, hpc]
  exact issueLogged_setMe h (hc.trans (congrArg Except.ok hto))

/-- An instruction whose bits fail R264, in a group with no other cause to take. -/
theorem issueLogged_defective (hg : s.group? s.cur = some g) (hp : placeOk i s.cur = true) (hd : g.deny = none)
    (hi : i.defect ≠ none) : issueLogged i core s = .next (s.takeException (isSvc i) (Trap.whole .illegalOp 0)) := by
  have hadm : admission i g = .error (.trap (Trap.whole .illegalOp 0)) := by
    simp [admission, hd, Option.isSome_iff_ne_none.mpr hi, trapNow]
  rw [issueLogged, issue, hg]
  simp only [hp, if_true, hadm, State.settle]

theorem need_of {b : Bool} {c : Cause} {a : Word} (h : b = true) : need b c a = .ok () := if_pos h

theorem need_of_not {b : Bool} {c : Cause} {a : Word} (h : b = false) :
    need b c a = .error (.trap (Trap.whole c a)) := by
  rw [need, h]; rfl

/-! ### Scalar operations (R271 to R274) -/

theorem issueLogged_scalarOp {f : ETy → Word → Word → Word → Int} (h : Ready i s g) :
    issueLogged i (scalarOp f o) s = .next (s.retiredAs g (g.r.setDst o.dst (toScalar o.ty
      (f o.ty (scalarTyOf o g.r o.a) (scalarTyOf o g.r o.b) (scalarTyOf o g.r o.c))))) :=
  issueLogged_setRegs h (by rw [scalarOp, State.regs_of_group? h.here])

/-- An instruction whose core is a scalar operation gives the extension of its n-bit result. -/
theorem givesTyped_of_scalarOp {f : ETy → Word → Word → Word → Int} {x : Regs → BitVec o.ty.bits}
    (he : ∀ s, exec i s = issueLogged i (scalarOp f o) s)
    (hx : ∀ r, BitVec.ofInt o.ty.bits
      (f o.ty (scalarTyOf o r o.a) (scalarTyOf o r o.b) (scalarTyOf o r o.c)) = x r) : givesTyped i o x := by
  intro s g h
  rw [he, issueLogged_scalarOp h, toScalar_eq_extended, hx]

theorem ofNat_operandA (o : Slot) (r : Regs) : BitVec.ofNat o.ty.bits (scalarTyOf o r o.a).toNat = lowA o r :=
  BitVec.ofNat_toNat _ _
theorem ofNat_operandB (o : Slot) (r : Regs) : BitVec.ofNat o.ty.bits (scalarTyOf o r o.b).toNat = lowB o r :=
  BitVec.ofNat_toNat _ _
theorem ofNat_operandC (o : Slot) (r : Regs) : BitVec.ofNat o.ty.bits (scalarTyOf o r o.c).toNat = lowC o r :=
  BitVec.ofNat_toNat _ _

/-- An operation on the n-bit patterns of A and B. -/
theorem givesTyped_patOp {f : Nat → Nat → Nat → Nat} (x : BitVec o.ty.bits → BitVec o.ty.bits → BitVec o.ty.bits)
    (he : ∀ s, exec i s = issueLogged i (scalarOp (patOp fun n a b => (f n a b : Nat)) o) s)
    (hx : ∀ a b, BitVec.ofNat _ (f o.ty.bits a b) = x (BitVec.ofNat _ a) (BitVec.ofNat _ b)) :
    givesTyped i o fun r => x (lowA o r) (lowB o r) :=
  givesTyped_of_scalarOp he fun r => by
    rw [patOp, BitVec.ofInt_natCast, hx, ofNat_mod_two_pow, ofNat_mod_two_pow, ofNat_operandA, ofNat_operandB]

/-- A shift or rotate of A by the whole of B. -/
theorem givesTyped_shiftOp {f : Nat → Nat → Nat → Nat} (x : BitVec o.ty.bits → Nat → BitVec o.ty.bits)
    (he : ∀ s, exec i s = issueLogged i (scalarOp (shiftOp f) o) s)
    (hx : ∀ a t, BitVec.ofNat _ (f o.ty.bits a t) = x (BitVec.ofNat _ a) t) :
    givesTyped i o fun r => x (lowA o r) (wordB o r).toNat :=
  givesTyped_of_scalarOp he fun r => by rw [shiftOp, BitVec.ofInt_natCast, hx, ofNat_operandA, wordB]

/-- An operation on A alone. -/
theorem givesTyped_unaryOp {f : Nat → Nat → Nat} (x : BitVec o.ty.bits → BitVec o.ty.bits)
    (he : ∀ s, exec i s = issueLogged i (scalarOp (fun t a _ _ => (f t.bits a.toNat : Nat)) o) s)
    (hx : ∀ a, BitVec.ofNat _ (f o.ty.bits a) = x (BitVec.ofNat _ a)) : givesTyped i o fun r => x (lowA o r) :=
  givesTyped_of_scalarOp he fun r => by rw [BitVec.ofInt_natCast, hx, ofNat_operandA]

theorem exec_cmp (o : Slot) : givesScalar (.cmp o) o fun r =>
    if compared o.ty.signed o.cond (lowA o r) (lowB o r) then 1 else 0 := by
  intro s g h
  show execCmp o s = _
  rw [execCmp, issueLogged_scalarOp h, toScalar_ite, condInt_extTy (Instr.cond_le_of_cmp h.legal)]
  rfl

/-! ### Division (R273) -/

/-- A division by a divisor other than zero. -/
theorem issueLogged_divideOp {f : Int → Int → Int} (h : Ready i s g) (hb : lowB o g.r ≠ 0) :
    issueLogged i (divideOp f o) s = .next (s.retiredAs g (g.r.setDst o.dst (extended o.ty (BitVec.ofInt o.ty.bits
      (f (extTy o.ty (scalarTyOf o g.r o.a).toNat) (extTy o.ty (scalarTyOf o g.r o.b).toNat)))))) := by
  have hb' : ¬ extTy o.ty (scalarTyOf o s.regs o.b).toNat = 0 := by
    rw [State.regs_of_group? h.here]; exact fun h0 => hb ((extTy_eq_zero_iff _ _).mp h0)
  have hcore : issueLogged i (divideOp f o) s = issueLogged i (scalarOp (extOp f) o) s := by
    rw [issueLogged_ready _ h, issueLogged_ready _ h, divideOp, if_neg hb']
  rw [hcore, issueLogged_scalarOp h, toScalar_eq_extended, extOp]

theorem issueLogged_divideOp_zero {f : Int → Int → Int} (h : Ready i s g) (hb : lowB o g.r = 0) :
    issueLogged i (divideOp f o) s = .next (s.takeException (isSvc i) (Trap.whole .divide 0)) := by
  refine issueLogged_trap h ?_
  rw [divideOp, State.regs_of_group? h.here, if_pos ((extTy_eq_zero_iff _ _).mpr hb)]; rfl

theorem signed_of_ready {f : Form} (h : Ready i s g) (he : i.encoded = some (f, o)) (ht : f.types = tySigned) :
    o.ty.signed = true :=
  signed_of_mem_tySigned _ (ht ▸ Instr.ty_mem_of_legal he h.legal (by rw [ht]; rfl))

theorem unsigned_of_ready {f : Form} (h : Ready i s g) (he : i.encoded = some (f, o)) (ht : f.types = tyUnsigned) :
    o.ty.signed = false :=
  unsigned_of_mem_tyUnsigned _ (ht ▸ Instr.ty_mem_of_legal he h.legal (by rw [ht]; rfl))

theorem exec_div (h : Ready (.div o) s g) (hb : lowB o g.r ≠ 0) : exec (.div o) s =
    .next (s.retiredAs g (g.r.setDst o.dst (extended o.ty ((lowA o g.r).sdiv (lowB o g.r))))) := by
  have hs := signed_of_ready h rfl rfl
  show execDiv o s = _
  rw [execDiv, issueLogged_divideOp h hb, extTy_signed hs, extTy_signed hs, ofInt_divT_toInt, lowA, lowB]

theorem exec_divn (h : Ready (.divn o) s g) (hb : lowB o g.r ≠ 0) : exec (.divn o) s =
    .next (s.retiredAs g (g.r.setDst o.dst (extended o.ty (lowA o g.r / lowB o g.r)))) := by
  have hu := unsigned_of_ready h rfl rfl
  show execDivn o s = _
  rw [execDivn, issueLogged_divideOp h hb, extTy_unsigned hu, extTy_unsigned hu, ofInt_divT_toNat, lowA, lowB]

theorem exec_rem (h : Ready (.rem o) s g) (hb : lowB o g.r ≠ 0) : exec (.rem o) s =
    .next (s.retiredAs g (g.r.setDst o.dst (extended o.ty ((lowA o g.r).srem (lowB o g.r))))) := by
  have hs := signed_of_ready h rfl rfl
  show execRem o s = _
  rw [execRem, issueLogged_divideOp h hb, extTy_signed hs, extTy_signed hs, ofInt_remT_toInt, lowA, lowB]

theorem exec_remn (h : Ready (.remn o) s g) (hb : lowB o g.r ≠ 0) : exec (.remn o) s =
    .next (s.retiredAs g (g.r.setDst o.dst (extended o.ty (lowA o g.r % lowB o g.r)))) := by
  have hu := unsigned_of_ready h rfl rfl
  show execRemn o s = _
  rw [execRemn, issueLogged_divideOp h hb, extTy_unsigned hu, extTy_unsigned hu, ofInt_remT_toNat, lowA, lowB]

theorem exec_division_by_zero (hi : i ∈ [Instr.div o, .divn o, .rem o, .remn o]) (h : Ready i s g)
    (hb : lowB o g.r = 0) : exec i s = .next (s.takeException false (Trap.whole .divide 0)) := by
  simp only [List.mem_cons, List.not_mem_nil, or_false] at hi
  obtain rfl | rfl | rfl | rfl := hi <;> exact issueLogged_divideOp_zero h hb

/-! ### Moves and special registers (R77, R275, R276) -/

theorem specialCheck_allowed {idx : Nat} (hg : s.group? s.cur = some g) (hx : s.special s.cur idx ≠ none)
    (hp : idx < 32 ∨ g.r.sup = true) : specialCheck s idx = .ok () := by
  rw [specialCheck, if_neg (by simpa using hx), State.regs_of_group? hg]
  exact need_of (by simpa using hp)

theorem specialCheck_privilege {idx : Nat} (hg : s.group? s.cur = some g) (hx : s.special s.cur idx ≠ none)
    (hi : 32 ≤ idx) (hp : g.r.sup = false) : specialCheck s idx = .error (.trap (Trap.whole .privilege 0)) := by
  rw [specialCheck, if_neg (by simpa using hx), State.regs_of_group? hg]
  exact need_of_not (by simp [hp, hi])

theorem exec_nop (h : Ready (.nop o) s g) : exec (.nop o) s = .next (s.retiredAs g g.r) := by
  show execNop o s = _
  exact issueLogged_same h rfl

theorem exec_movi (h : Ready (.movi o) s g) :
    exec (.movi o) s = .next (s.retiredAs g (g.r.setDst o.dst ((o.mod ++ o.imm).signExtend 64))) := by
  show execMovi o s = _
  exact issueLogged_setRegs h (by rw [State.regs_of_group? h.here, moviValue])

theorem exec_mov (h : Ready (.mov o) s g) :
    exec (.mov o) s = .next (s.retiredAs g (g.r.setDst o.dst (g.r.getS o.a.num))) := by
  show execMov o s = _
  exact issueLogged_setRegs h (by rw [State.regs_of_group? h.here])

theorem exec_srd {x : Word} (h : Ready (.srd o) s g) (hx : s.special s.cur o.a.num = some x)
    (hp : o.a.num < 32 ∨ g.r.sup = true) : exec (.srd o) s = .next (s.retiredAs g (g.r.setDst o.dst x)) := by
  show execSrd o s = _
  refine issueLogged_setRegs h ?_
  have hcheck := specialCheck_allowed h.here (by rw [hx]; exact Option.some_ne_none x) hp
  rw [coreSrd, hcheck, hx, State.regs_of_group? h.here]
  rfl

theorem exec_swr (h : Ready (.swr o) s g) (hx : s.special s.cur o.dst.num ≠ none)
    (hp : o.dst.num < 32 ∨ g.r.sup = true)
    (hw : o.dst.num = 1 → ((g.r.getS o.a.num).extractLsb' 0 3).toNat < 5) :
    exec (.swr o) s = .next (s.retiredAs g (g.r.writeSpecial o.dst.num (g.r.getS o.a.num))) := by
  show execSwr o s = _
  refine issueLogged_setRegs h ?_
  rw [coreSwr, specialCheck_allowed h.here hx hp, State.regs_of_group? h.here]
  have hneed : need (!(o.dst.num = 1 && 5 ≤ ((g.r.getS o.a.num).extractLsb' 0 3).toNat)) .illegalOp = .ok () :=
    need_of (by simpa [Decidable.imp_iff_not_or] using hw)
  simp only [bind, Except.bind, hneed]
  rfl

theorem exec_srd_privilege (h : Ready (.srd o) s g) (hx : s.special s.cur o.a.num ≠ none) (hi : 32 ≤ o.a.num)
    (hp : g.r.sup = false) : exec (.srd o) s = .next (s.takeException false (Trap.whole .privilege 0)) := by
  show execSrd o s = _
  refine issueLogged_trap h ?_
  rw [coreSrd, specialCheck_privilege h.here hx hi hp]; rfl

theorem exec_swr_privilege (h : Ready (.swr o) s g) (hx : s.special s.cur o.dst.num ≠ none) (hi : 32 ≤ o.dst.num)
    (hp : g.r.sup = false) : exec (.swr o) s = .next (s.takeException false (Trap.whole .privilege 0)) := by
  show execSwr o s = _
  refine issueLogged_trap h ?_
  rw [coreSwr, specialCheck_privilege h.here hx hi hp]; rfl

/-- LPART is a user register: no privilege is needed to name it, and its value decides (R276). -/
theorem exec_swr_lpart (h : Ready (.swr o) s g) (hi : o.dst.num = 1)
    (hw : 5 ≤ ((g.r.getS o.a.num).extractLsb' 0 3).toNat) :
    exec (.swr o) s = .next (s.takeException false (Trap.whole .illegalOp 0)) := by
  have hx : s.special s.cur o.dst.num ≠ none := by rw [hi]; exact Option.some_ne_none _
  have hneed : need (!(o.dst.num = 1 && 5 ≤ ((g.r.getS o.a.num).extractLsb' 0 3).toNat)) .illegalOp =
      .error (.trap (Trap.whole .illegalOp 0)) := need_of_not (by simpa [hi] using hw)
  show execSwr o s = _
  refine issueLogged_trap h ?_
  rw [coreSwr, specialCheck_allowed h.here hx (.inl (by omega)), State.regs_of_group? h.here]
  simp only [bind, Except.bind, hneed]

/-! ### Masks and tiles (R277 to R279) -/

theorem exec_mblk (h : Ready (.mblk o) s g) :
    let m := (g.r.getS o.a.num).extractLsb' 0 32
    exec (.mblk o) s =
      .next (s.retiredAs (if m = 0 then jumped g (displaced o g.r.pc) else g) { g.r with exm := m }) := by
  intro m
  show execMblk o s = _
  by_cases hm : m = 0
  · rw [if_pos hm]
    exact issueLogged_setRegs_jump h
      (by rw [coreMblk, State.regs_of_group? h.here, dispTarget_eq_displaced]; exact congrArg Except.ok (if_pos hm)) rfl
  · rw [if_neg hm]
    exact issueLogged_setRegs h (by rw [coreMblk, State.regs_of_group? h.here]; exact congrArg Except.ok (if_neg hm))

theorem exec_part (h : Ready (.part o) s g) (hb : (scalarOf o g.r o.b).toNat ≤ 4) : exec (.part o) s =
    .next (s.retiredAs g { g.r with lpart := (scalarOf o g.r o.b).extractLsb' 0 3 }) := by
  show execPart o s = _
  refine issueLogged_setRegs h ?_
  rw [corePart, State.regs_of_group? h.here, need_of (decide_eq_true hb)]; rfl

theorem exec_part_wide (h : Ready (.part o) s g) (hb : 4 < (scalarOf o g.r o.b).toNat) :
    exec (.part o) s = .next (s.takeException false (Trap.whole .illegalOp 0)) := by
  show execPart o s = _
  refine issueLogged_trap h ?_
  rw [corePart, State.regs_of_group? h.here, need_of_not (decide_eq_false (Nat.not_le.mpr hb))]; rfl

theorem exec_serb (h : Ready (.serb o) s g) (hs : g.r.serial = false) :
    let r := g.r.setDst o.dst (g.r.exm.setWidth 64)
    exec (.serb o) s = .next (if g.r.exm = 0 then s.retiredAs (jumped g (displaced o g.r.pc)) r
      else s.retiredAs g { r with serial := true, exm := lowest g.r.exm }) := by
  intro r
  show execSerb o s = _
  have hcore : coreSerb o s = .ok (if g.r.exm = 0 then (s.setRegs r).jump (displaced o g.r.pc)
      else s.setRegs { r with serial := true, exm := lowest g.r.exm }) := by
    rw [coreSerb, State.regs_of_group? h.here, need_of (by rw [hs]; rfl), dispTarget_eq_displaced, lowestBit_eq_lowest]
    rfl
  by_cases h0 : g.r.exm = 0
  · rw [if_pos h0] at hcore ⊢
    exact issueLogged_setRegs_jump h hcore (by simp [r])
  · rw [if_neg h0] at hcore ⊢
    exact issueLogged_setRegs h hcore

theorem exec_serb_nested (h : Ready (.serb o) s g) (hs : g.r.serial = true) :
    exec (.serb o) s = .next (s.takeException false (Trap.whole .illegalOp 0)) := by
  show execSerb o s = _
  refine issueLogged_trap h ?_
  rw [coreSerb, State.regs_of_group? h.here, need_of_not (by rw [hs]; rfl)]; rfl

theorem exec_sere (h : Ready (.sere o) s g) (hs : g.r.serial = true) (h0 : g.r.exm ≠ 0)
    (h1 : lowest g.r.exm = g.r.exm) :
    let a := (g.r.getS o.a.num).extractLsb' 0 32
    exec (.sere o) s = .next (if above a g.r.exm ≠ 0
      then s.retiredAs (jumped g (displaced o g.r.pc)) { g.r with exm := lowest (above a g.r.exm) }
      else s.retiredAs g { g.r with exm := a, serial := false }) := by
  intro a
  show execSere o s = _
  have hcore : coreSere o s = .ok (if above a g.r.exm ≠ 0
      then (s.setRegs { g.r with exm := lowest (above a g.r.exm) }).jump (displaced o g.r.pc)
      else s.setRegs { g.r with exm := a, serial := false }) := by
    rw [coreSere, State.regs_of_group? h.here, need_of (by rw [hs, oneBit_of_lowest h0 h1]; rfl),
      dispTarget_eq_displaced]
    simp only [lowestBit_eq_lowest]
    rfl
  by_cases hr : above a g.r.exm ≠ 0
  · rw [if_pos hr] at hcore ⊢
    exact issueLogged_setRegs_jump h hcore rfl
  · rw [if_neg hr] at hcore ⊢
    exact issueLogged_setRegs h hcore

theorem exec_sere_outside (h : Ready (.sere o) s g) (hs : g.r.serial = false) :
    exec (.sere o) s = .next (s.takeException false (Trap.whole .illegalOp 0)) := by
  show execSere o s = _
  refine issueLogged_trap h ?_
  rw [coreSere, State.regs_of_group? h.here, need_of_not (by rw [hs]; rfl)]; rfl

/-! ### Branches and calls (R281) -/

theorem exec_br (h : Ready (.br o) s g) :
    exec (.br o) s = .next (s.retiredAs (jumped g (displaced o g.r.pc)) g.r) := by
  show execBr o s = _
  exact issueLogged_jump h (by rw [State.regs_of_group? h.here, dispTarget_eq_displaced])

theorem exec_brc (h : Ready (.brc o) s g) : exec (.brc o) s = .next
    (if compared o.ty.signed o.cond ((g.r.getS o.a.num).setWidth o.ty.bits) ((g.r.getS o.b.num).setWidth o.ty.bits)
      then s.retiredAs (jumped g (displaced o g.r.pc)) g.r else s.retiredAs g g.r) := by
  have hcore : coreBrc o s = .ok
      (if compared o.ty.signed o.cond ((g.r.getS o.a.num).setWidth o.ty.bits) ((g.r.getS o.b.num).setWidth o.ty.bits)
        then s.jump (displaced o g.r.pc) else s) := by
    simp only [coreBrc, State.regs_of_group? h.here, condInt_extTy (Instr.cond_le_of_brc h.legal),
      dispTarget_eq_displaced]
  show execBrc o s = _
  split
  next hc => exact issueLogged_jump h (by rw [hcore, if_pos hc])
  next hc => exact issueLogged_same h (by rw [hcore, if_neg hc])

theorem exec_brc_unordered (hg : s.group? s.cur = some g) (hp : placeOk (.brc o) s.cur = true) (hd : g.deny = none)
    (hc : 6 ≤ o.cond) : exec (.brc o) s = .next (s.takeException false (Trap.whole .illegalOp 0)) := by
  have hi : (Instr.brc o).defect ≠ none := fun hn => by
    have := Instr.cond_le_of_brc hn
    omega
  exact issueLogged_defective hg hp hd hi

theorem exec_jmp (h : Ready (.jmp o) s g) :
    exec (.jmp o) s = .next (s.retiredAs (jumped g (g.r.getS o.a.num)) g.r) := by
  show execJmp o s = _
  exact issueLogged_jump h (by rw [State.regs_of_group? h.here])

theorem exec_ret (h : Ready (.ret o) s g) :
    exec (.ret o) s = .next (s.retiredAs (jumped g (g.r.getS o.a.num)) g.r) := by
  show execRet o s = _
  exact issueLogged_jump h (by rw [State.regs_of_group? h.here])

/-- The link is the successor from before the transfer, and the target has been read before the link is written. -/
theorem issueLogged_callTo (h : Ready i s g) (hc : core s = callTo o t s) :
    issueLogged i core s = .next (s.retiredAs (jumped g t) (g.r.setDst o.dst g.succ)) :=
  issueLogged_setRegs_jump h (by rw [hc, callTo, State.regs_of_group? h.here, State.me_of_group? h.here]) (by simp)

theorem exec_call (h : Ready (.call o) s g) :
    exec (.call o) s = .next (s.retiredAs (jumped g (displaced o g.r.pc)) (g.r.setDst o.dst g.succ)) := by
  show execCall o s = _
  exact issueLogged_callTo h (by rw [State.regs_of_group? h.here, dispTarget_eq_displaced])

theorem exec_calli (h : Ready (.calli o) s g) :
    exec (.calli o) s = .next (s.retiredAs (jumped g (g.r.getS o.a.num)) (g.r.setDst o.dst g.succ)) := by
  show execCalli o s = _
  exact issueLogged_callTo h (by rw [State.regs_of_group? h.here])

end Machine

/-- Settles O2: each operation gives the n-bit result of its bit-vector counterpart. -/
theorem scalarBits : Obligations.ScalarBits := by
  unfold Obligations.ScalarBits
  exact ⟨fun o =>
    ⟨givesTyped_patOp (· &&& ·) (fun _ => rfl) fun _ _ => BitVec.ofNat_and,
     givesTyped_patOp (· ||| ·) (fun _ => rfl) fun _ _ => BitVec.ofNat_or,
     givesTyped_patOp (· ^^^ ·) (fun _ => rfl) fun _ _ => BitVec.ofNat_xor,
     givesTyped_patOp (fun a b => a &&& ~~~b) (fun _ => rfl) fun _ _ => by rw [BitVec.ofNat_and, ofNat_notN],
     givesTyped_shiftOp (· <<< ·) (fun _ => rfl) (ofNat_shlN _),
     givesTyped_shiftOp (· >>> ·) (fun _ => rfl) (ofNat_shrN _),
     givesTyped_shiftOp .sshiftRight (fun _ => rfl) (ofNat_sarN _),
     givesTyped_shiftOp .rotateLeft (fun _ => rfl) (ofNat_rolN _),
     givesTyped_shiftOp .rotateRight (fun _ => rfl) (ofNat_rorN _)⟩, fun o =>
    ⟨exec_cmp o,
     givesTyped_unaryOp .clz (fun _ => rfl) (ofNat_clzN _),
     givesTyped_unaryOp .ctz (fun _ => rfl) (ofNat_ctzN _),
     givesTyped_unaryOp .cpop (fun _ => rfl) (ofNat_popN _),
     givesTyped_unaryOp .reverse (fun _ => rfl) (ofNat_brevN _)⟩⟩

/-- Settles O3, with the inserted field read bit by bit. -/
theorem scalarFields : Obligations.ScalarFields := by
  unfold Obligations.ScalarFields
  intro o
  refine ⟨?_, ?_, fun s g h => ?_⟩
  · exact givesTyped_of_scalarOp (fun _ => rfl) fun r => by
      rw [BitVec.ofInt_natCast, ofNat_bfxN_unsigned, ofNat_operandA]; rfl
  · exact givesTyped_of_scalarOp (fun _ => rfl) fun r => by
      rw [BitVec.ofInt_natCast, ofNat_bfxN_signed, ofNat_operandA]; rfl
  · refine ⟨BitVec.ofNat _
      (bfiN o.ty.bits (scalarTyOf o g.r o.a).toNat (wordB o g.r).toNat (scalarTyOf o g.r o.c).toNat), ?_,
      fun i hi => ?_⟩
    · show execBfi o s = _
      rw [execBfi, issueLogged_scalarOp h, toScalar_eq_extended, BitVec.ofInt_natCast, wordB]
    · rw [getLsbD_bfiN _ _ _ hi, ofNat_operandA, ofNat_operandC]; rfl

/-- Settles O4: the divisor is zero, or the model's quotient and remainder are those of bit vectors. -/
theorem scalarDivide : Obligations.ScalarDivide := by
  unfold Obligations.ScalarDivide
  exact fun o s g => ⟨exec_div, exec_divn, exec_rem, exec_remn, fun i => exec_division_by_zero⟩

/-- Settles O5: the index checks decide between the trap and the move. -/
theorem moves : Obligations.Moves := by
  unfold Obligations.Moves
  exact fun o s g => ⟨exec_nop, exec_movi, exec_mov, fun x => exec_srd, exec_swr, exec_srd_privilege,
    exec_swr_privilege, exec_swr_lpart⟩

/-- Settles O6, with a mask of one lane as the fixed point of its lowest bit. -/
theorem masks : Obligations.Masks := by
  unfold Obligations.Masks
  exact fun o s g => ⟨exec_mblk, exec_part, exec_part_wide, exec_serb, exec_serb_nested, exec_sere, exec_sere_outside⟩

/-- Settles O7: each transfer from its rule, and the refusal of UN and ORD from the checks of R264. -/
theorem branches : Obligations.Branches := by
  unfold Obligations.Branches
  exact fun o s g => ⟨exec_br, exec_brc, exec_brc_unordered, exec_jmp, exec_ret, exec_call, exec_calli⟩

end Sys2Proof

/-!
PROOFS of the statements on the lanes' integer elements (R290, R296 to R299). First what two element operations that
agree on n-bit patterns do to a lane, then an element's extension as the value of its bit vector, then the instructions.
-/

namespace Sys2Proof.Machine

open Sys2Proof.Claim

/-! ### Element operations on a lane (R53, R290) -/

theorem elem_lt (n e x : Nat) : elem n e x < 2 ^ n := Nat.mod_lt _ (Nat.two_pow_pos n)

/-- A lane's bits depend only on the low bits of its elements. -/
theorem packElems_congr {α : Type} {n : Nat} {f g : α → Nat} (h : ∀ e, BitVec.ofNat n (f e) = BitVec.ofNat n (g e))
    (es : List α) : packElems n (es.map f) = packElems n (es.map g) := by
  induction es with
  | nil => rfl
  | cons e es ih =>
    have he : f e % 2 ^ n = g e % 2 ^ n := by simpa using congrArg BitVec.toNat (h e)
    show f e % 2 ^ n + packElems n (es.map f) * 2 ^ n = g e % 2 ^ n + packElems n (es.map g) * 2 ^ n
    rw [he, ih]

/-- Two element operations that agree on n-bit patterns modulo 2ⁿ do the same to a lane. -/
theorem mapElems_congr {n : Nat} {f g : Nat → Nat → Nat → Nat}
    (h : ∀ a b c, a < 2 ^ n → b < 2 ^ n → c < 2 ^ n → BitVec.ofNat n (f a b c) = BitVec.ofNat n (g a b c))
    (a b c : Nat) : mapElems n f a b c = mapElems n g a b c :=
  packElems_congr (fun e => h _ _ _ (elem_lt n e a) (elem_lt n e b) (elem_lt n e c)) _

/-! ### The value of an element (R8, R296) -/

/-- EXT of an n-bit element, signed as its type is. -/
def elemValue (t : ETy) (x : BitVec t.bits) : Int := if t.signed then x.toInt else x.toNat

theorem extTy_eq_elemValue (t : ETy) (a : Nat) : extTy t a = elemValue t (BitVec.ofNat t.bits a) := by
  rw [extTy, elemValue, sext_eq_toInt, BitVec.toNat_ofNat, zext]

theorem ofInt_elemValue {t : ETy} (x : BitVec t.bits) : BitVec.ofInt t.bits (elemValue t x) = x := by
  rw [elemValue]
  split
  · exact BitVec.ofInt_toInt
  · rw [BitVec.ofInt_natCast, BitVec.ofNat_toNat, BitVec.setWidth_eq]

theorem condInt_elemValue {t : ETy} {cond : Nat} (hc : cond ≤ 5) (x y : BitVec t.bits) :
    condInt cond (elemValue t x) (elemValue t y) = compared t.signed cond x y := by
  cases h : t.signed
  · simpa [elemValue, h] using condInt_toNat hc x y
  · simpa [elemValue, h] using condInt_toInt hc x y

theorem elemValue_lt_iff {t : ETy} (x y : BitVec t.bits) :
    elemValue t x < elemValue t y ↔ (if t.signed then x.slt y else x.ult y) = true :=
  decide_eq_true_iff.symm.trans (Bool.eq_iff_iff.mp (condInt_elemValue (cond := 2) (by decide) x y))

/-- SAT of R8 as the nearer bound. -/
theorem satInt_eq_max_min {t : ETy} (x : Int) : satInt t x = max (tyLeast t) (min (tyGreatest t) x) := by
  have hle : tyLeast t ≤ tyGreatest t := by cases t <;> decide
  rw [satInt]
  split
  · omega
  · split <;> omega

/-! ### Issue of an element operation (R290) -/

section
variable {i : Instr} {o : Slot}

/-- An instruction whose core is an element operation of its type's width. -/
theorem givesLanes_of_intOp {f : ETy → Nat → Nat → Nat → Nat}
    {x : BitVec o.ty.bits → BitVec o.ty.bits → BitVec o.ty.bits → BitVec o.ty.bits}
    (he : ∀ s, exec i s = issueLogged i (intOp f o) s)
    (hx : ∀ a b c, a < 2 ^ o.ty.bits → b < 2 ^ o.ty.bits → c < 2 ^ o.ty.bits →
      BitVec.ofNat _ (f o.ty a b c) = x (BitVec.ofNat _ a) (BitVec.ofNat _ b) (BitVec.ofNat _ c)) :
    givesLanes i o x := by
  intro s g h
  have hlane (a b c : Nat) := mapElems_congr
    (g := fun a b c => (x (BitVec.ofNat _ a) (BitVec.ofNat _ b) (BitVec.ofNat _ c)).toNat)
    (fun a b c ha hb hc => by rw [hx a b c ha hb hc, BitVec.ofNat_toNat, BitVec.setWidth_eq]) a b c
  rw [he]
  refine issueLogged_setRegs h ?_
  rw [intOp, State.regs_of_group? h.here]
  simp only [hlane, lanewise]

/-- An operation on extended elements, written modulo 2ⁿ (R296). -/
theorem givesLanes_of_extElem {f : Int → Int → Int → Int}
    {x : BitVec o.ty.bits → BitVec o.ty.bits → BitVec o.ty.bits → BitVec o.ty.bits}
    (he : ∀ s, exec i s = issueLogged i (intOp (extElem f) o) s)
    (hx : ∀ a b c, BitVec.ofInt _ (f (elemValue o.ty a) (elemValue o.ty b) (elemValue o.ty c)) = x a b c) :
    givesLanes i o x :=
  givesLanes_of_intOp he fun a b c _ _ _ => by
    rw [extElem, extTy_eq_elemValue, extTy_eq_elemValue, extTy_eq_elemValue, wrapInt_eq, hx, BitVec.ofNat_toNat,
      BitVec.setWidth_eq]

/-- An operation on the n-bit pattern of A alone. -/
theorem givesLanes_unary {f : Nat → Nat → Nat} (x : BitVec o.ty.bits → BitVec o.ty.bits)
    (he : ∀ s, exec i s = issueLogged i (intOp (fun t a _ _ => f t.bits a) o) s)
    (hx : ∀ a, BitVec.ofNat _ (f o.ty.bits a) = x (BitVec.ofNat _ a)) : givesLanes i o fun a _ _ => x a :=
  givesLanes_of_intOp he fun a _ _ _ _ _ => hx a

/-- A shift of an element of A by the whole element of B (R297). -/
theorem givesLanes_shift {f : Nat → Nat → Nat → Nat} (x : BitVec o.ty.bits → Nat → BitVec o.ty.bits)
    (he : ∀ s, exec i s = issueLogged i (intOp (fun t a b _ => f t.bits a b) o) s)
    (hx : ∀ a t, BitVec.ofNat _ (f o.ty.bits a t) = x (BitVec.ofNat _ a) t) :
    givesLanes i o fun a b _ => x a b.toNat :=
  givesLanes_of_intOp he fun a b _ _ hb _ => by rw [hx, BitVec.toNat_ofNat, Nat.mod_eq_of_lt hb]

end

/-! ### Vector integer arithmetic (R296) -/

theorem exec_vadd (o : Slot) : givesLanes (.vadd o) o fun a b _ => a + b :=
  givesLanes_of_extElem (fun _ => rfl) fun a b _ => by rw [BitVec.ofInt_add, ofInt_elemValue, ofInt_elemValue]

theorem exec_vsub (o : Slot) : givesLanes (.vsub o) o fun a b _ => a - b :=
  givesLanes_of_extElem (fun _ => rfl) fun a b _ => by
    rw [Int.sub_eq_add_neg, BitVec.ofInt_add, BitVec.ofInt_neg, ofInt_elemValue, ofInt_elemValue,
      BitVec.sub_eq_add_neg]

theorem exec_vmul (o : Slot) : givesLanes (.vmul o) o fun a b _ => a * b :=
  givesLanes_of_extElem (fun _ => rfl) fun a b _ => by rw [BitVec.ofInt_mul, ofInt_elemValue, ofInt_elemValue]

theorem exec_vmad (o : Slot) : givesLanes (.vmad o) o fun a b c => a * b + c :=
  givesLanes_of_extElem (fun _ => rfl) fun a b c => by
    rw [BitVec.ofInt_add, BitVec.ofInt_mul, ofInt_elemValue, ofInt_elemValue, ofInt_elemValue]

theorem exec_vmulh (o : Slot) : givesLanes (.vmulh o) o fun a b _ =>
    if o.ty.signed then BitVec.ofInt _ (a.toInt * b.toInt / 2 ^ o.ty.bits)
    else BitVec.ofNat _ (a.toNat * b.toNat / 2 ^ o.ty.bits) :=
  givesLanes_of_extElem (fun _ => rfl) fun a b _ => by
    cases h : o.ty.signed
    · rw [if_neg Bool.false_ne_true, ← BitVec.ofInt_natCast]
      simp [elemValue, h]
    · simp [elemValue, h]

theorem exec_vmin (o : Slot) : givesLanes (.vmin o) o fun a b _ =>
    if (if o.ty.signed then b.slt a else b.ult a) then b else a :=
  givesLanes_of_extElem (fun _ => rfl) fun a b _ => by
    simp only [elemValue_lt_iff, apply_ite (BitVec.ofInt _), ofInt_elemValue]

theorem exec_vmax (o : Slot) : givesLanes (.vmax o) o fun a b _ =>
    if (if o.ty.signed then a.slt b else a.ult b) then b else a :=
  givesLanes_of_extElem (fun _ => rfl) fun a b _ => by
    simp only [elemValue_lt_iff, apply_ite (BitVec.ofInt _), ofInt_elemValue]

/-- VCMP refuses UN and ORD (R260). -/
theorem cond_le_of_vcmp {o : Slot} (h : (Instr.vcmp o).defect = none) : o.cond ≤ 5 := by
  obtain ⟨-, -, ⟨-, hcond⟩, -⟩ := Instr.checks_of_legal rfl h
  exact of_decide_eq_true hcond

theorem exec_vcmp (o : Slot) : givesLanes (.vcmp o) o fun a b _ =>
    if compared o.ty.signed o.cond a b then 1 else 0 := by
  intro s g h
  refine givesLanes_of_extElem (fun _ => rfl) (fun a b _ => ?_) s g h
  rw [condInt_elemValue (cond_le_of_vcmp h.legal)]
  split
  · exact BitVec.ofInt_natCast _ 1
  · exact BitVec.ofInt_natCast _ 0

theorem exec_vsel (o : Slot) : givesLanes (.vsel o) o fun a b c => if c = 0 then b else a :=
  givesLanes_of_intOp (fun _ => rfl) fun a b c _ _ hc => by
    have hzero : BitVec.ofNat o.ty.bits c = 0 ↔ c = 0 := by
      rw [← BitVec.toNat_inj, BitVec.toNat_ofNat, Nat.mod_eq_of_lt hc]; rfl
    by_cases h : c = 0
    · rw [if_neg (not_not_intro h), if_pos (hzero.mpr h)]
    · rw [if_pos h, if_neg (mt hzero.mp h)]

theorem exec_vadds (o : Slot) : givesLanes (.vadds o) o fun a b _ =>
    if o.ty.signed
    then BitVec.ofInt _ (max (-2 ^ (o.ty.bits - 1)) (min (2 ^ (o.ty.bits - 1) - 1) (a.toInt + b.toInt)))
    else BitVec.ofNat _ (min (2 ^ o.ty.bits - 1) (a.toNat + b.toNat)) :=
  givesLanes_of_extElem (fun _ => rfl) fun a b _ => by
    rw [satInt_eq_max_min, tyLeast, tyGreatest]
    cases h : o.ty.signed
    · have hmin : max 0 (min (2 ^ o.ty.bits - 1) ((a.toNat : Int) + b.toNat)) =
          (min (2 ^ o.ty.bits - 1) (a.toNat + b.toNat) : Nat) := by
        have hcast : (2 : Int) ^ o.ty.bits = (2 ^ o.ty.bits : Nat) := (Int.natCast_pow 2 _).symm
        have hpos := Nat.two_pow_pos o.ty.bits
        rw [hcast]
        omega
      simp only [Bool.false_eq_true, if_false, ← BitVec.ofInt_natCast, ← hmin]
      simp [elemValue, h]
    · simp [elemValue, h]

/-! ### Vector bit operations (R298, R299) -/

theorem ofNat_ffsN (n a : Nat) :
    BitVec.ofNat n (ffsN n a) = if BitVec.ofNat n a = 0 then 0 else (BitVec.ofNat n a).ctz + 1 := by
  have hzero : BitVec.ofNat n a = 0 ↔ a % 2 ^ n = 0 := by
    rw [← BitVec.toNat_inj, BitVec.toNat_ofNat]; rfl
  by_cases h : a % 2 ^ n = 0
  · rw [ffsN, if_pos h, if_pos (hzero.mpr h)]; rfl
  · rw [ffsN, if_neg h, if_neg (mt hzero.mp h), BitVec.ofNat_add, ofNat_ctzN]; rfl

theorem exec_vbfx (o : Slot) : givesLanes (.vbfx o) o fun a b _ =>
    let p := b.toNat % 256
    let m := min (b.toNat / 256 % 256) (o.ty.bits - p)
    if o.ty.signed then (a.extractLsb' p m).signExtend _ else (a.extractLsb' p m).setWidth _ :=
  givesLanes_of_intOp (fun _ => rfl) fun a b _ _ hb _ => by
    rw [BitVec.toNat_ofNat, Nat.mod_eq_of_lt hb]
    cases o.ty.signed
    · exact ofNat_bfxN_unsigned _ a b
    · exact ofNat_bfxN_signed _ a b

theorem fieldMask_eq_shiftLeft (n p m : Nat) : fieldMask n p m = (BitVec.allOnes m).setWidth n <<< p := by
  have hones : BitVec.ofNat n (2 ^ m - 1) = (BitVec.allOnes m).setWidth n :=
    BitVec.eq_of_toNat_eq (by rw [BitVec.toNat_setWidth, BitVec.toNat_allOnes, BitVec.toNat_ofNat])
  rw [fieldMask, ofNat_shiftLeft, hones]

theorem ofNat_mod_eq_setWidth {n m : Nat} (a : Nat) (h : m ≤ n) :
    BitVec.ofNat n (a % 2 ^ m) = ((BitVec.ofNat n a).setWidth m).setWidth n :=
  BitVec.eq_of_toNat_eq (by simp [Nat.mod_mod_of_dvd a (Nat.pow_dvd_pow 2 h)])

theorem exec_vbfi (o : Slot) : givesLanes (.vbfi o) o fun a b c =>
    let p := b.toNat % 256
    let m := min (b.toNat / 256 % 256) (o.ty.bits - p)
    let hole := (BitVec.allOnes m).setWidth o.ty.bits <<< p
    (c &&& ~~~hole) ||| ((a.setWidth m).setWidth o.ty.bits <<< p) :=
  givesLanes_of_intOp (fun _ => rfl) fun a b c _ hb _ => by
    have hlen : fieldLen o.ty.bits b ≤ o.ty.bits := Nat.le_trans (Nat.min_le_right _ _) (Nat.sub_le _ _)
    rw [ofNat_bfiN, fieldMask_eq_shiftLeft, ofNat_mod_eq_setWidth a hlen, BitVec.toNat_ofNat, Nat.mod_eq_of_lt hb]
    rfl

end Sys2Proof.Machine

namespace Sys2Proof

open Sys2Proof.Machine

/-- Settles O11: extended elements operated on and written modulo 2ⁿ are bit-vector operations, and VADDS takes the
nearer bound. -/
theorem vectorArithmetic : Obligations.VectorArithmetic := by
  unfold Obligations.VectorArithmetic
  exact fun o =>
    ⟨exec_vadd o, exec_vsub o, exec_vmul o, exec_vmulh o, exec_vmad o, exec_vmin o, exec_vmax o,
     givesLanes_of_intOp (fun _ => rfl) fun _ _ _ _ _ _ => BitVec.ofNat_and,
     givesLanes_of_intOp (fun _ => rfl) fun _ _ _ _ _ _ => BitVec.ofNat_or,
     givesLanes_of_intOp (fun _ => rfl) fun _ _ _ _ _ _ => BitVec.ofNat_xor,
     exec_vcmp o, exec_vsel o, exec_vadds o⟩

/-- Settles O12: a count or a control word is the whole element of B, and each operation is its bit-vector
counterpart. -/
theorem vectorBits : Obligations.VectorBits := by
  unfold Obligations.VectorBits
  exact fun o =>
    ⟨givesLanes_shift (· <<< ·) (fun _ => rfl) (ofNat_shlN _),
     givesLanes_shift (· >>> ·) (fun _ => rfl) (ofNat_shrN _),
     givesLanes_shift .sshiftRight (fun _ => rfl) (ofNat_sarN _),
     givesLanes_unary .clz (fun _ => rfl) (ofNat_clzN _),
     givesLanes_unary .ctz (fun _ => rfl) (ofNat_ctzN _),
     givesLanes_unary _ (fun _ => rfl) (ofNat_ffsN _),
     givesLanes_unary .cpop (fun _ => rfl) (ofNat_popN _),
     givesLanes_unary .reverse (fun _ => rfl) (ofNat_brevN _),
     exec_vbfx o, exec_vbfi o⟩

end Sys2Proof

/-!
PROOFS of the statement on float arithmetic and the special functions (R291 to R295). First the issue of a float
element operation, then the quotient and the roots as floors with a sticky bit (R293), then the operands of 2^a, log₂,
sin(π a) and cos(π a) at which the fixed-point fraction vanishes (R294).
-/

namespace Sys2Proof.Machine

open Sys2Proof.Claim

/-! ### Issue of a float element operation (R291, R295) -/

theorem givesFloats_of_floatOp {i : Instr} {o : Slot} {f : FFmt → Nat → Nat → Nat → Nat}
    (he : ∀ s, exec i s = issueLogged i (floatOp f o) s) : givesFloats i o f := by
  intro s g h
  rw [he]
  exact issueLogged_setRegs h (by rw [floatOp, State.regs_of_group? h.here])

/-- The binary32 instruction and the packed 16-bit instruction of one element operation (R295). -/
theorem givesFloats_of_floatOp_pair {i j : Instr} {o : Slot} {f : FFmt → Nat → Nat → Nat → Nat}
    (hi : ∀ s, exec i s = issueLogged i (floatOp f o) s) (hj : ∀ s, exec j s = issueLogged j (floatOp f o) s) :
    ∀ k ∈ [i, j], givesFloats k o f :=
  List.forall_mem_cons.mpr ⟨givesFloats_of_floatOp hi, List.forall_mem_singleton.mpr (givesFloats_of_floatOp hj)⟩

/-! ### Floors with a sticky bit (R293) -/

/-- Twice a floor, with a last bit that marks an inexact one. -/
theorem sticky_of_bounds {x k p r : Nat} {isExact : Prop} [Decidable isExact] (he : isExact ↔ (2 * x) ^ k * r = p)
    (hle : (2 * x) ^ k * r ≤ p) (hlt : p < (2 * x + 2) ^ k * r) :
    sticky (2 * x + if isExact then 0 else 1) k p r := by
  rw [sticky]
  by_cases h : isExact
  · rw [if_pos h]
    exact .inl (he.mp h)
  · rw [if_neg h]
    exact .inr ⟨by omega, Nat.lt_of_le_of_ne hle (mt he.mpr h), hlt⟩

/-- ⌊p ÷ m⌋ and its sticky bit approximate 2 p ÷ m. -/
theorem sticky_div {p m : Nat} (hm : m ≠ 0) : sticky (2 * (p / m) + if p / m * m = p then 0 else 1) 1 (2 * p) m := by
  have hle := Nat.div_mul_le_self p m
  have hlt := Nat.lt_mul_div_succ p (Nat.pos_of_ne_zero hm)
  have htwice : (2 * (p / m)) ^ 1 * m = 2 * (p / m * m) := by grind
  have hnext : (2 * (p / m) + 2) ^ 1 * m = 2 * (m * (p / m + 1)) := by grind
  refine sticky_of_bounds ?_ ?_ ?_ <;> omega

theorem isqrtFrom_bounds {n : Nat} (k : Nat) :
    ∀ r, r * r ≤ n → n < (r + 2 ^ (k + 1)) * (r + 2 ^ (k + 1)) →
      isqrtFrom k n r * isqrtFrom k n r ≤ n ∧ n < (isqrtFrom k n r + 1) * (isqrtFrom k n r + 1) := by
  induction k with
  | zero =>
    intro r hle hlt
    rw [isqrtFrom]
    split
    next h => exact ⟨h, hlt⟩
    next h => exact ⟨hle, Nat.lt_of_not_le h⟩
  | succ k ih =>
    intro r hle hlt
    have hpow : r + 2 ^ (k + 1 + 1) = r + 2 ^ (k + 1) + 2 ^ (k + 1) := by
      rw [Nat.pow_succ 2 (k + 1)]
      omega
    rw [hpow] at hlt
    rw [isqrtFrom]
    split
    next h => exact ih _ h hlt
    next h => exact ih _ hle (Nat.lt_of_not_le h)

theorem isqrt_bounds (n : Nat) : isqrt n * isqrt n ≤ n ∧ n < (isqrt n + 1) * (isqrt n + 1) := by
  refine isqrtFrom_bounds _ 0 (Nat.zero_le _) ?_
  rw [Nat.zero_add, ← Nat.pow_add]
  exact Nat.lt_of_lt_of_le Nat.lt_log2_self (Nat.pow_le_pow_right (by decide) (by omega))

theorem le_isqrt {x n : Nat} (h : x * x ≤ n) : x ≤ isqrt n :=
  Nat.le_of_not_lt fun hlt =>
    Nat.lt_irrefl _ (Nat.lt_of_le_of_lt (Nat.le_trans (Nat.mul_le_mul hlt hlt) h) (isqrt_bounds n).2)

theorem le_isqrt_div {x p d : Nat} (hd : 0 < d) (h : x * x * d ≤ p) : x ≤ isqrt (p / d) :=
  le_isqrt ((Nat.le_div_iff_mul_le hd).mpr h)

/-- ⌊√(p ÷ (u m))⌋ and its sticky bit approximate √(n ÷ m), where n is 4 p ÷ u. -/
theorem sticky_isqrt_div {p m u n : Nat} (hu : 0 < u) (hm : 0 < m) (hn : n * u = 4 * p) :
    let x := isqrt (p / (u * m))
    sticky (2 * x + if x * x * (u * m) = p then 0 else 1) 2 n m := by
  intro x
  have hum : 0 < u * m := Nat.mul_pos hu hm
  obtain ⟨hfloor, hnext⟩ := isqrt_bounds (p / (u * m))
  have hle : x * x * (u * m) ≤ p := (Nat.le_div_iff_mul_le hum).mp hfloor
  have hlt : p < (x + 1) * (x + 1) * (u * m) := (Nat.div_lt_iff_lt_mul hum).mp hnext
  have htwice : (2 * x) ^ 2 * m * u = 4 * (x * x * (u * m)) := by grind
  have htwice' : (2 * x + 2) ^ 2 * m * u = 4 * ((x + 1) * (x + 1) * (u * m)) := by grind
  refine sticky_of_bounds ?_ ?_ ?_
  · rw [← Nat.mul_left_inj (b := (2 * x) ^ 2 * m) (Nat.ne_of_gt hu), htwice, hn]
    omega
  · exact Nat.le_of_mul_le_mul_right (by omega) hu
  · exact Nat.lt_of_mul_lt_mul_right (a := u) (by omega)

/-! ### 1 ÷ a, √a and 1 ÷ √a of finite operands -/

theorem fnRcp_fin {m : Nat} (hm : m ≠ 0) (neg : Bool) (e : Int) :
    let p := 2 ^ (Nat.log2 m + 80)
    fnRcp (.fin neg m e) =
      .fin neg (2 * (p / m) + if p / m * m = p then 0 else 1) (-e - (Nat.log2 m + 80 : Nat) - 1) := by
  rw [fnRcp, if_neg hm, quotient, Nat.one_shiftLeft]

theorem fnRcp_sticky {m : Nat} (hm : m ≠ 0) (neg : Bool) (e : Int) :
    ∃ (q t : Nat) (k : Int), fnRcp (.fin neg m e) = .fin neg q k ∧ 2 ^ 80 ≤ q ∧ e + k + t = 0 ∧
      sticky q 1 (2 ^ t) m := by
  have hlow : 2 ^ 79 ≤ 2 ^ (Nat.log2 m + 80) / m := by
    rw [Nat.le_div_iff_mul_le (Nat.pos_of_ne_zero hm)]
    calc 2 ^ 79 * m ≤ 2 ^ 79 * 2 ^ (Nat.log2 m + 1) := Nat.mul_le_mul_left _ (Nat.le_of_lt Nat.lt_log2_self)
      _ = 2 ^ (Nat.log2 m + 80) := by rw [← Nat.pow_add]; congr 1; omega
  rw [fnRcp_fin hm]
  refine ⟨_, Nat.log2 m + 80 + 1, _, rfl, by omega, by omega, ?_⟩
  rw [Nat.pow_succ' (n := Nat.log2 m + 80)]
  exact sticky_div hm

/-- √(m 2ᵉ) under an even exponent e − sh. -/
theorem fnSqrt_fin {m : Nat} (hm : m ≠ 0) (e : Int) :
    ∃ sh : Nat, 200 ≤ sh ∧ (e - sh) % 2 = 0 ∧
      let x := m * 2 ^ sh
      fnSqrt (.fin false m e) =
        .fin false (2 * isqrt x + if isqrt x * isqrt x = x then 0 else 1) ((e - sh) / 2 - 1) := by
  refine ⟨if e % 2 = 0 then 200 else 201, ?_, ?_, ?_⟩
  · split <;> omega
  · split <;> omega
  · rw [fnSqrt, if_neg hm, if_neg Bool.false_ne_true, rootOf, Nat.shiftLeft_eq]

theorem fnSqrt_sticky {m : Nat} (hm : m ≠ 0) (e : Int) :
    ∃ (q t : Nat) (k : Int), fnSqrt (.fin false m e) = .fin false q k ∧ 2 ^ 100 ≤ q ∧ e = 2 * k + t ∧
      sticky q 2 (m * 2 ^ t) 1 := by
  obtain ⟨sh, hsh, heven, hval⟩ := fnSqrt_fin hm e
  have hlow : 2 ^ 100 ≤ isqrt (m * 2 ^ sh) := by
    refine le_isqrt ?_
    rw [← Nat.pow_add]
    exact Nat.le_trans (Nat.pow_le_pow_right (by decide) hsh) (Nat.le_mul_of_pos_left _ (Nat.pos_of_ne_zero hm))
  rw [hval]
  refine ⟨_, sh + 2, _, rfl, by omega, by omega, ?_⟩
  have hpow : m * 2 ^ (sh + 2) * 1 = 4 * (m * 2 ^ sh) := by
    rw [Nat.mul_one, Nat.pow_add, ← Nat.mul_assoc, Nat.mul_comm]
  have := sticky_isqrt_div (m := 1) Nat.one_pos Nat.one_pos hpow
  simpa only [Nat.mul_one, Nat.div_one] using this

/-- 1 ÷ √(m 2ᵉ), with 2 m for m under an odd exponent. -/
theorem fnRsq_fin {m : Nat} (hm : m ≠ 0) (e : Int) :
    ∃ u : Nat, (u = 1 ∨ u = 2) ∧ (e + 1 - u) % 2 = 0 ∧
      let x := isqrt (2 ^ 400 / (u * m))
      fnRsq (.fin false m e) =
        .fin false (2 * x + if x * x * (u * m) = 2 ^ 400 then 0 else 1) (-200 - (e + 1 - u) / 2 - 1) := by
  by_cases he : e % 2 = 0
  · refine ⟨1, .inl rfl, by omega, ?_⟩
    rw [fnRsq, if_neg hm, if_neg Bool.false_ne_true]
    simp only [if_pos he, Nat.one_mul, show e + 1 - (1 : Nat) = e by omega]
  · refine ⟨2, .inr rfl, by omega, ?_⟩
    rw [fnRsq, if_neg hm, if_neg Bool.false_ne_true]
    simp only [if_neg he, show e + 1 - (2 : Nat) = e - 1 by omega]

theorem fnRsq_sticky {m : Nat} (hm : m ≠ 0) (hlt : m < 2 ^ 53) (e : Int) :
    ∃ (q t : Nat) (k : Int), fnRsq (.fin false m e) = .fin false q k ∧ 2 ^ 100 ≤ q ∧ 2 * k + e + t = 0 ∧
      sticky q 2 (2 ^ t) m := by
  obtain ⟨u, hu, heven, hval⟩ := fnRsq_fin hm e
  have hum : 0 < u * m := Nat.mul_pos (by omega) (Nat.pos_of_ne_zero hm)
  have hsmall : u * m ≤ 2 ^ 54 := by obtain rfl | rfl := hu <;> omega
  have hprod : 2 ^ 100 * 2 ^ 100 * (u * m) ≤ 2 ^ 400 :=
    Nat.le_trans (Nat.mul_le_mul_left _ hsmall) (by decide +kernel)
  have hlow := le_isqrt_div hum hprod
  have hpow : 2 ^ (403 - u) * u = 4 * 2 ^ 400 := by obtain rfl | rfl := hu <;> decide +kernel
  rw [hval]
  have hsticky := sticky_isqrt_div (by omega) (Nat.pos_of_ne_zero hm) hpow
  exact ⟨_, 403 - u, _, rfl, by omega, by omega, hsticky⟩

theorem fnRsq_negative {m : Nat} (hm : m ≠ 0) (e : Int) : fnRsq (.fin true m e) = .nan := by
  rw [fnRsq, if_neg hm, if_pos rfl]

theorem fnSqrt_negative {m : Nat} (hm : m ≠ 0) (e : Int) : fnSqrt (.fin true m e) = .nan := by
  rw [fnSqrt, if_neg hm, if_pos rfl]

theorem fnLog2_negative {m : Nat} (hm : m ≠ 0) (e : Int) : fnLog2 (.fin true m e) = .nan := by
  rw [fnLog2, if_neg hm, if_pos rfl]

/-! ### Integers and half-integers in fixed point -/

theorem fxOne_eq : fxOne = 2 * (fxOne / 2) := by decide +kernel

theorem fxOne_pos : 0 < fxOne := Nat.two_pow_pos fxBits

theorem splitFx_of_nonpos (neg : Bool) (m j : Nat) :
    splitFx neg m (-(j : Int)) =
      let x : Nat := (m * fxOne) >>> j
      let y : Int := if neg then -(x : Int) else x
      (y / fxOne, (y % fxOne).toNat) := by
  cases j with
  | zero => rfl
  | succ j =>
    have hneg : ¬ 0 ≤ -((j + 1 : Nat) : Int) := by omega
    rw [splitFx, if_neg hneg, Int.neg_neg, Int.toNat_natCast]

/-- An integer has no fraction. -/
theorem splitFx_whole (neg : Bool) (m j : Nat) :
    splitFx neg (m * 2 ^ j) (-(j : Int)) = (if neg then -(m : Int) else m, 0) := by
  have hshift : (m * 2 ^ j * fxOne) >>> j = m * fxOne := by
    rw [Nat.shiftRight_eq_div_pow, Nat.mul_right_comm, Nat.mul_div_cancel _ (Nat.two_pow_pos j)]
  have hpos : (fxOne : Int) ≠ 0 := by have := fxOne_pos; omega
  have hsign : (if neg then -((m * fxOne : Nat) : Int) else (m * fxOne : Nat)) =
      (if neg then -(m : Int) else m) * fxOne := by
    cases neg
    · simp only [Bool.false_eq_true, if_false, Int.natCast_mul]
    · simp only [if_true, Int.natCast_mul, Int.neg_mul]
  rw [splitFx_of_nonpos, hshift]
  simp only [hsign, Int.mul_ediv_cancel _ hpos, Int.mul_emod_left, Int.toNat_zero]

/-- The fraction of a half-integer is one half. -/
theorem splitFx_half (m j : Nat) :
    splitFx false ((2 * m + 1) * 2 ^ j) (-((j : Int) + 1)) = ((m : Int), fxOne / 2) := by
  have hone := fxOne_eq
  have hpos := fxOne_pos
  have hshift : ((2 * m + 1) * 2 ^ j * fxOne) >>> (j + 1) = fxOne / 2 + m * fxOne := by
    rw [Nat.shiftRight_eq_div_pow]
    refine Nat.div_eq_of_eq_mul_left (Nat.two_pow_pos _) ?_
    rw [Nat.pow_succ]
    generalize fxOne / 2 = half at hone ⊢
    rw [hone]
    grind
  have hhalf : fxOne / 2 < fxOne := by omega
  rw [show -((j : Int) + 1) = -((j + 1 : Nat) : Int) by omega, splitFx_of_nonpos, hshift]
  simp only [Bool.false_eq_true, if_false, ← Int.natCast_ediv, ← Int.natCast_emod, Int.toNat_natCast,
    Nat.add_mul_div_right _ _ hpos, Nat.add_mul_mod_self_right, Nat.div_eq_of_lt hhalf, Nat.mod_eq_of_lt hhalf,
    Nat.zero_add]

theorem quadrant_whole (m j : Nat) : quadrant (m * 2 ^ j) (-(j : Int)) = (m % 2 * 2, 0) := by
  have hturn : ((m : Int) % 2).toNat = m % 2 := by omega
  rw [quadrant, splitFx_whole]
  simp only [Bool.false_eq_true, if_false, Nat.mul_zero, Nat.zero_div, Nat.zero_mod, hturn, Nat.add_zero]
  rw [Nat.mod_eq_of_lt (by omega)]

theorem quadrant_half (m j : Nat) : quadrant ((2 * m + 1) * 2 ^ j) (-((j : Int) + 1)) = (m % 2 * 2 + 1, 0) := by
  have hturn : ((m : Int) % 2).toNat = m % 2 := by omega
  rw [quadrant, splitFx_half, ← fxOne_eq]
  simp only [Nat.div_self fxOne_pos, Nat.mod_self, Nat.zero_div, hturn]
  rw [Nat.mod_eq_of_lt (by omega)]

/-! ### 2^a and log₂ where they are exact (R294) -/

theorem mul_two_pow_ne_zero {m : Nat} (hm : m ≠ 0) (j : Nat) : m * 2 ^ j ≠ 0 :=
  Nat.mul_ne_zero hm (Nat.ne_of_gt (Nat.two_pow_pos j))

theorem log2_mul_two_pow {m : Nat} (hm : m ≠ 0) (j : Nat) : Nat.log2 (m * 2 ^ j) = Nat.log2 m + j := by
  rw [Nat.log2_eq_iff (mul_two_pow_ne_zero hm j)]
  refine ⟨?_, ?_⟩
  · rw [Nat.pow_add]
    exact Nat.mul_le_mul_right _ (Nat.log2_self_le hm)
  · rw [Nat.add_right_comm, Nat.pow_add]
    exact Nat.mul_lt_mul_of_pos_right Nat.lt_log2_self (Nat.two_pow_pos j)

theorem fnExp2_whole {m : Nat} (hm : m ≠ 0) (hlt : m < 150) (neg : Bool) (j : Nat) :
    fnExp2 (.fin neg (m * 2 ^ j) (-(j : Int))) = .fin false 1 (if neg then -(m : Int) else m) := by
  have hlog : Nat.log2 m < 8 := (Nat.log2_lt hm).mpr (by omega)
  have hsmall : ¬ 9 ≤ -(j : Int) + Nat.log2 (m * 2 ^ j) := by
    rw [log2_mul_two_pow hm]
    omega
  rw [fnExp2, if_neg (mul_two_pow_ne_zero hm j), if_neg hsmall, splitFx_whole]
  rfl

theorem fnLog2_two_pow (j : Nat) (e : Int) : fnLog2 (.fin false (2 ^ j) e) = Number.ofInt (e + j) := by
  rw [fnLog2, if_neg (Nat.ne_of_gt (Nat.two_pow_pos j)), if_neg Bool.false_ne_true, Nat.log2_two_pow]
  exact if_pos rfl

/-! ### sin(π a) and cos(π a) where they are exact, and their symmetries (R294) -/

/-- On the axes of the circle sin(π a) is 0, or 1 with the sign of a and of its half turn. -/
theorem fnSinPi_of_quadrant {m q : Nat} {e : Int} (hm : m ≠ 0) (he : e < 0) (hq : quadrant m e = (q, 0)) (s : Bool) :
    fnSinPi (.fin s m e) = if q % 2 = 0 then .fin s 0 0 else .fin (s != decide (2 ≤ q)) 1 0 := by
  have hfrac : ¬ (m = 0 || decide (0 ≤ e)) = true := by simp [hm, he]
  rw [fnSinPi, if_neg hfrac, hq]
  exact if_pos rfl

theorem fnCosPi_of_quadrant {m q : Nat} {e : Int} (hm : m ≠ 0) (he : e < 0) (hq : quadrant m e = (q, 0)) (s : Bool) :
    fnCosPi (.fin s m e) = if q % 2 = 1 then .fin false 0 0 else .fin (q = 1 || q = 2) 1 0 := by
  rw [fnCosPi, if_neg hm, if_neg (Int.not_le.mpr he), hq]
  exact if_pos rfl

theorem fnSinPi_whole (neg : Bool) (m j : Nat) : fnSinPi (.fin neg (m * 2 ^ j) (-(j : Int))) = .fin neg 0 0 := by
  by_cases h : m * 2 ^ j = 0 ∨ j = 0
  · have hint : (m * 2 ^ j = 0 || decide (0 ≤ -(j : Int))) = true := by
      rcases h with h | h <;> simp [h]
    rw [fnSinPi, if_pos hint]
  · obtain ⟨hm, hj⟩ := not_or.mp h
    rw [fnSinPi_of_quadrant hm (by omega) (quadrant_whole m j), if_pos (Nat.mul_mod_left _ 2)]

theorem fnSinPi_half (neg : Bool) (m j : Nat) :
    fnSinPi (.fin neg ((2 * m + 1) * 2 ^ j) (-((j : Int) + 1))) = .fin (neg != (m % 2 == 1)) 1 0 := by
  have hm : (2 * m + 1) * 2 ^ j ≠ 0 := mul_two_pow_ne_zero (by omega) j
  rw [fnSinPi_of_quadrant hm (by omega) (quadrant_half m j), if_neg (by omega)]
  rcases Nat.mod_two_eq_zero_or_one m with h | h <;> simp [h]

theorem fnCosPi_whole (neg : Bool) (m j : Nat) :
    fnCosPi (.fin neg (m * 2 ^ j) (-(j : Int))) = .fin (m % 2 == 1) 1 0 := by
  by_cases hm : m = 0
  · rw [hm, Nat.zero_mul, fnCosPi, if_pos rfl]; rfl
  · have hmj : m * 2 ^ j ≠ 0 := mul_two_pow_ne_zero hm j
    by_cases hj : j = 0
    · subst hj
      have hint : 0 ≤ -((0 : Nat) : Int) := Int.le_refl 0
      rw [fnCosPi, if_neg hmj, if_pos hint, Nat.pow_zero, Nat.mul_one]
      rfl
    · rw [fnCosPi_of_quadrant hmj (by omega) (quadrant_whole m j), if_neg (by omega)]
      rcases Nat.mod_two_eq_zero_or_one m with h | h <;> simp [h]

theorem fnCosPi_half (neg : Bool) (m j : Nat) :
    fnCosPi (.fin neg ((2 * m + 1) * 2 ^ j) (-((j : Int) + 1))) = .fin false 0 0 := by
  have hm : (2 * m + 1) * 2 ^ j ≠ 0 := mul_two_pow_ne_zero (by omega) j
  rw [fnCosPi_of_quadrant hm (by omega) (quadrant_half m j), if_pos (by omega)]

theorem fnSinPi_odd (neg : Bool) (m : Nat) (e : Int) :
    fnSinPi (.fin (!neg) m e) = (fnSinPi (.fin neg m e)).neg := by
  simp only [fnSinPi]
  split
  · rfl
  · split
    · split
      · rfl
      · simp [Number.neg]
    · simp [Number.neg, stickyFx]

theorem fnCosPi_even (neg : Bool) (m : Nat) (e : Int) : fnCosPi (.fin (!neg) m e) = fnCosPi (.fin neg m e) := rfl

/-! ### The statement -/

theorem negative_operand_is_nan {m : Nat} (hm : m ≠ 0) (e : Int) :
    ∀ fn ∈ [fnRsq, fnSqrt, fnLog2], fn (.fin true m e) = .nan :=
  List.forall_mem_cons.mpr ⟨fnRsq_negative hm e, List.forall_mem_cons.mpr ⟨fnSqrt_negative hm e,
    List.forall_mem_singleton.mpr (fnLog2_negative hm e)⟩⟩

end Sys2Proof.Machine

namespace Sys2Proof

open Sys2Proof.Machine Sys2Proof.Claim

/-- Settles O14: floors with a sticky bit for the quotient and the roots, a vanishing fraction where 2^a, log₂, sin(π a)
and cos(π a) are exact, and the fixed-point series evaluated for the four single values. -/
theorem floatArithmetic : Obligations.FloatArithmetic := by
  unfold Obligations.FloatArithmetic
  refine ⟨fun o => ?arithmetic, fun o => ?functions, ?table, fun m e hm => ?roots, fun m j e neg => ?axes, ?values⟩
  case arithmetic =>
    exact ⟨givesFloats_of_floatOp_pair (fun _ => rfl) (fun _ => rfl), givesFloats_of_floatOp (fun _ => rfl),
      givesFloats_of_floatOp_pair (fun _ => rfl) (fun _ => rfl),
      givesFloats_of_floatOp_pair (fun _ => rfl) (fun _ => rfl),
      givesFloats_of_floatOp_pair (fun _ => rfl) (fun _ => rfl),
      givesFloats_of_floatOp_pair (fun _ => rfl) (fun _ => rfl),
      givesFloats_of_floatOp_pair (fun _ => rfl) (fun _ => rfl), givesFloats_of_floatOp (fun _ => rfl),
      givesFloats_of_floatOp (fun _ => rfl)⟩
  case functions =>
    exact ⟨givesFloats_of_floatOp (fun _ => rfl), givesFloats_of_floatOp (fun _ => rfl),
      givesFloats_of_floatOp (fun _ => rfl), givesFloats_of_floatOp (fun _ => rfl),
      givesFloats_of_floatOp (fun _ => rfl), givesFloats_of_floatOp (fun _ => rfl),
      givesFloats_of_floatOp (fun _ => rfl)⟩
  case table =>
    simp only [specialRow]
    decide +kernel
  case roots =>
    exact ⟨negative_operand_is_nan hm e, fun neg => fnRcp_sticky hm neg e, fnSqrt_sticky hm e,
      fun hlt => fnRsq_sticky hm hlt e⟩
  case axes =>
    exact ⟨fun hpos hlt => fnExp2_whole (Nat.ne_of_gt hpos) hlt neg j, fnLog2_two_pow j e, fnSinPi_whole neg m j,
      fnSinPi_half neg m j, fnCosPi_whole neg m j, fnCosPi_half neg m j, fnSinPi_odd neg m e, fnCosPi_even neg m e⟩
  case values => decide +kernel

end Sys2Proof

/-!
PROOFS of the statement on the lane functions SCACC and DRAW (R70, R349, R356). First that a rounded value fits the
format's bits, so that a binary32 register holds exactly what the rounding gives, then the two instructions.
-/

namespace Sys2Proof.Machine

open Sys2Proof.Claim

/-! ### A rounded value in a binary32 register (R56, R59) -/

theorem FFmt.withSign_lt {f : FFmt} {mag : Nat} (hbits : 0 < f.bits) (hmag : mag < 2 ^ (f.bits - 1)) (neg : Bool) :
    f.withSign neg mag < 2 ^ f.bits := by
  have hdouble : 2 ^ f.bits = 2 ^ (f.bits - 1) + 2 ^ (f.bits - 1) := by
    rw [← Nat.two_pow_succ, Nat.sub_add_cancel hbits]
  rw [FFmt.withSign]
  split <;> omega

/-- Where the greatest magnitude, infinity and NaN stand below the sign bit, so does every rounded magnitude. -/
theorem FFmt.round_lt {f : FFmt} (hbits : 0 < f.bits) (hmax : f.maxFin < 2 ^ (f.bits - 1))
    (hinf : f.inf.getD f.nan < 2 ^ (f.bits - 1)) (hnan : f.nan < 2 ^ f.bits) (mode : Nat) (x : Number) :
    f.round mode x < 2 ^ f.bits := by
  have hcode {c : Nat} (hc : c ≤ f.maxFin) (neg : Bool) : f.withSign neg c < 2 ^ f.bits :=
    FFmt.withSign_lt hbits (Nat.lt_of_le_of_lt hc hmax) neg
  cases x with
  | nan => exact hnan
  | inf s => exact FFmt.withSign_lt hbits hinf s
  | fin s m e =>
    exact iteInduction (motive := (· < 2 ^ f.bits)) (fun hc => hcode hc s) fun _ =>
      iteInduction (motive := (· < 2 ^ f.bits)) (fun _ => FFmt.withSign_lt hbits hinf s)
        fun _ => hcode (Nat.le_refl _) s

theorem rne32_toNat (x : Number) : (rne32 x).toNat = fmtF32.round 0 x := by
  have hlt : fmtF32.round 0 x < 2 ^ 32 :=
    FFmt.round_lt (f := fmtF32) (by decide) (by decide) (by decide) (by decide) 0 x
  rw [rne32, BitVec.toNat_ofNat, Nat.mod_eq_of_lt hlt]

/-! ### Lane functions (R290) -/

/-- An instruction whose core gives each active lane of its destination a value. -/
theorem givesLane_of_core {i : Instr} {o : Slot} {t : ETy} {f : Regs → Nat → Nat} {core : State → Eff}
    (he : ∀ s, exec i s = issueLogged i core s)
    (hc : ∀ s, core s = .ok (s.setRegs (s.regs.mapLanes t o.dst (f s.regs)))) : givesLane i o t f := by
  intro s g h
  rw [he]
  exact issueLogged_setRegs h (by rw [hc, State.regs_of_group? h.here])

/-- SEXT of the low 48 bits of a register pair (R8, R349). -/
theorem sext_accumulator (x : Word) : sext (x.toNat % 2 ^ 48) 48 = (x.setWidth 48).toInt := by
  rw [sext_eq_toInt, ofNat_mod_two_pow, BitVec.ofNat_toNat]

/-- R70 on codes: the canonical NaN, or the one rounding of the running sum. -/
theorem scacc_toNat (p : Int) (ea eb : Nat) (acc : Lane) :
    (scacc p ea eb acc).toNat =
      if ea = 0x7F ∨ eb = 0x7F then 0x7FC00000
      else fmtF32.round 0 (Number.add 0 (fmtF32.decode acc.toNat)
        ((fmtF32.decode (fmtF32.round 0 (Number.ofInt p))).scale ((ea : Int) + eb - 126))) := by
  rw [scacc]
  split
  · rfl
  · rw [rne32_toNat, f32val, f32val, rne32_toNat]

theorem uniform_toNat (x : Lane) : (uniform x).toNat = fmtF32.round 0 (.fin false (x >>> 8).toNat (-24)) := by
  rw [uniform, rne32_toNat]

theorem exec_scacc (o : Slot) : givesLane (.scacc o) o .f32 fun r l =>
    let e := laneOf o r o.b .f32 l
    let p := ((r.getVV o.a.num l).setWidth 48).toInt
    if e % 128 = 0x7F ∨ e / 256 % 128 = 0x7F then 0x7FC00000
    else fmtF32.round 0 (Number.add 0 (fmtF32.decode (r.getV o.dst.num l).toNat)
      ((fmtF32.decode (fmtF32.round 0 (Number.ofInt p))).scale ((e % 128 : Nat) + (e / 256 % 128 : Nat) - 126))) :=
  givesLane_of_core (core := coreScacc o) (fun _ => rfl) fun s => by
    simp only [coreScacc, scacc_toNat, sext_accumulator]

theorem exec_draw (o : Slot) : givesLane (.draw o) o .n32 fun r l =>
    let x := drawOut r.rngKey0 r.rngKey1 (r.getV o.a.num l) (BitVec.ofNat 32 (laneOf o r o.b .n32 l))
    if o.ty = .f32 then fmtF32.round 0 (.fin false (x >>> 8).toNat (-24)) else x.toNat :=
  givesLane_of_core (core := coreDraw o) (fun _ => rfl) fun s => by
    simp only [coreDraw, apply_ite BitVec.toNat, uniform_toNat]

end Sys2Proof.Machine

namespace Sys2Proof

open Sys2Proof.Machine

/-- Settles O39: SCACC and DRAW write in each lane what R70 and R356 compute, for a rounded value fits the register. -/
theorem laneFunctions : Obligations.LaneFunctions := by
  unfold Obligations.LaneFunctions
  exact fun o => ⟨exec_scacc o, exec_draw o⟩

end Sys2Proof
